-- ==== Sys2Proof/Word.lean ====
section
/-! DEFINITION. The word types of the block: what the spec treats as bits. -/

namespace Sys2Proof

/-- A symbol response, or one byte lane of a register (R61, R92). -/
abbrev Byte := BitVec 8

/-- A register as the host reads and writes it (R61); a command word (R80). -/
abbrev Word := BitVec 32

/-- A table identifier on the symbol request port (R92, R93). -/
abbrev Tid := BitVec 6

/-- A byte offset in the 4096-byte host register window, relative to `REG_BASE` (R60, R96). -/
abbrev Offset := BitVec 12

end Sys2Proof
end

