-- ==== Sys2Proof/Syntax.lean ====
section
/-! DEFINITION. The commands of the block: one constructor per row of spec/opcode_table.json. -/

namespace Sys2Proof

/-- A command with the operands its word carries (R80, R81). `RECON` and `PITCHMAP` take theirs from registers
(R88). -/
inductive Instr where
  /-- No operation (R220). -/
  | nop
  /-- Reinitialise the channel state (R221). -/
  | reset
  /-- Decode one frame's indices (R110), with `MODE` (R82) and the `VAD` flag (R83). -/
  | decidx (mode : BitVec 2) (vad : Bool)
  /-- Reconstruct one frame's parameters (R150). -/
  | recon
  /-- `DECIDX` then `RECON` as one command (R222). -/
  | decfrm (mode : BitVec 2) (vad : Bool)
  /-- Map a lag index and a contour index to pitch lags (R200). -/
  | pitchmap
deriving DecidableEq, Repr

end Sys2Proof
end

