-- ==== Sys2Proof/WellFormed.lean ====
section
/-! DEFINITION. Which commands the encoding admits: `MODE` 3 is reserved (R82, R84). -/

namespace Sys2Proof

/-- `MODE` 0 `IND`, 1 `IND_NOLTPS`, 2 `COND`; 3 is reserved (R82). -/
abbrev modeLegal (mode : BitVec 2) : Bool := mode != 3

/-- The commands that some legal command word stands for (R84). -/
def Instr.wellFormed : Instr → Bool
  | .nop => true
  | .reset => true
  | .decidx mode _ => modeLegal mode
  | .recon => true
  | .decfrm mode _ => modeLegal mode
  | .pitchmap => true

end Sys2Proof
end

