-- ==== Sys2Proof/Decode.lean ====
section
/-! DEFINITION. Reading and writing the command word (R80 to R90). -/

namespace Sys2Proof

/-- Why a word is no command. The block answers each with `ErrCmd` (R86, R241). -/
inductive DecodeError where
  /-- Fewer than the four bytes of a command word (R87: a command is always one word). -/
  | truncated
  /-- `RSVD`, bits 31:7, is not 0 (R84). -/
  | reservedBits
  /-- `OP` 0x6 to 0xF (R81). -/
  | reservedOpcode
  /-- `MODE` 3 on `DECIDX` or `DECFRM` (R82). -/
  | reservedMode
  /-- `MODE` or `VAD` not 0 on a command that takes neither (R84). -/
  | unusedOperand
deriving DecidableEq, Repr

/-- Field `OP`, bits 3:0 of a command word (R80). -/
def opField (w : Word) : BitVec 4 := w.extractLsb' 0 4

/-- Field `MODE`, bits 5:4 (R80). -/
def modeField (w : Word) : BitVec 2 := w.extractLsb' 4 2

/-- Field `VAD`, bit 6 (R80). -/
def vadField (w : Word) : Bool := w.getLsbD 6

/-- Field `RSVD`, bits 31:7 (R80). -/
def rsvdField (w : Word) : BitVec 25 := w.extractLsb' 7 25

/-- The opcode of a command (R81). -/
def Instr.opcode : Instr → BitVec 4
  | .nop => 0x0
  | .reset => 0x1
  | .decidx _ _ => 0x2
  | .recon => 0x3
  | .decfrm _ _ => 0x4
  | .pitchmap => 0x5

/-- A command that takes neither `MODE` nor `VAD` needs both to be 0 (R84). -/
def bareCommand (i : Instr) (mode : BitVec 2) (vad : Bool) : Except DecodeError Instr :=
  if mode = 0 ∧ vad = false then .ok i else .error .unusedOperand

/-- The command that a word's `OP`, `MODE` and `VAD` name (R81, R84). -/
def decodeFields (op : BitVec 4) (mode : BitVec 2) (vad : Bool) : Except DecodeError Instr :=
  if op = 0x0 then bareCommand .nop mode vad
  else if op = 0x1 then bareCommand .reset mode vad
  else if op = 0x2 then (if modeLegal mode then .ok (.decidx mode vad) else .error .reservedMode)
  else if op = 0x3 then bareCommand .recon mode vad
  else if op = 0x4 then (if modeLegal mode then .ok (.decfrm mode vad) else .error .reservedMode)
  else if op = 0x5 then bareCommand .pitchmap mode vad
  else .error .reservedOpcode

/-- The decoder: total, and the only no-effect command it knows is `NOP` (R84, R86). -/
def decode (w : Word) : Except DecodeError Instr :=
  if rsvdField w = 0 then decodeFields (opField w) (modeField w) (vadField w)
  else .error .reservedBits

/-- R84 in the spec's own words: the condition on a word's fields for it to be legal. -/
def legalWord (w : Word) : Bool :=
  rsvdField w == 0 && decide (opField w ≤ 5) &&
    (if opField w = 0x2 ∨ opField w = 0x4 then modeField w != 3
      else modeField w == 0 && !vadField w)

/-- Four byte lanes make a word, the lowest byte offset carrying bits 7:0 (R61). -/
def wordOfLanes (b0 b1 b2 b3 : Byte) : Word := b3 ++ b2 ++ b1 ++ b0

/-- The byte lanes of a word, lowest byte offset first (R61). -/
def lanesOfWord (w : Word) : List Byte :=
  [w.extractLsb' 0 8, w.extractLsb' 8 8, w.extractLsb' 16 8, w.extractLsb' 24 8]

/-- The decoder over bytes as a bus presents them (R61, R87): one command word and the bytes after it. -/
def decodeBytes : List Byte → Except DecodeError (Instr × List Byte)
  | b0 :: b1 :: b2 :: b3 :: rest =>
    match decode (wordOfLanes b0 b1 b2 b3) with
    | .ok i => .ok (i, rest)
    | .error e => .error e
  | _ => .error .truncated

/-- The command word of `OP`, `MODE` and `VAD`, with `RSVD` 0 (R80). -/
def commandWord (op : BitVec 4) (mode : BitVec 2) (vad : Bool) : Word :=
  0#25 ++ BitVec.ofBool vad ++ mode ++ op

/-- The encoder (R80, R90). -/
def encode : Instr → Word
  | .nop => commandWord 0x0 0 false
  | .reset => commandWord 0x1 0 false
  | .decidx mode vad => commandWord 0x2 mode vad
  | .recon => commandWord 0x3 0 false
  | .decfrm mode vad => commandWord 0x4 mode vad
  | .pitchmap => commandWord 0x5 0 false

/-- The encoder over bytes (R61). -/
def encodeBytes (i : Instr) : List Byte := lanesOfWord (encode i)

/-- The `nbits` low bits of `w`, every higher bit of the instruction being 0. -/
def tableBits (nbits w : Nat) : Nat := w % 2 ^ nbits

/-- What the decoder reads from an instruction whose bits are `w`, numbered as spec/opcode_table.json numbers
them; no instruction is longer than one 32-bit word (R87). -/
def decodeTableWord (nbits w : Nat) : Option Instr :=
  if tableBits nbits w < 2 ^ 32 then
    match decodeBytes (lanesOfWord (BitVec.ofNat 32 (tableBits nbits w))) with
    | .ok (i, _) => some i
    | .error _ => none
  else none

end Sys2Proof
end

