-- ==== Sys2Proof/Machine/State.lean ====
section
/-! DEFINITION. Every piece of state of one block (R20 to R53) as plain data, the reasons a step can stop, and
the state after power-on reset (R53, R280). -/

namespace Sys2Proof.Machine

/-- The Channel Decoder State, persistent across frames (R23 to R30). `LPC_ORDER`, `CFG_OK` and the codebook are
derived from `fsKhz` and `nbSubfr` (R30), not stored. -/
structure Channel where
  /-- `PREV_NLSF[0..15]`, unsigned Q15 (R23). -/
  prevNlsf : Vector (BitVec 16) 16
  /-- `LAST_GAIN_INDEX`, signed (R24). -/
  lastGainIndex : BitVec 8
  /-- `PREV_LAG_INDEX`, signed (R25). -/
  prevLagIndex : BitVec 16
  /-- `PREV_SIGNAL_TYPE` (R26). -/
  prevSignalType : BitVec 2
  /-- `FIRST_FRAME` (R27). -/
  firstFrame : Bool
  /-- `LOSS_CNT`, unsigned (R28). -/
  lossCnt : BitVec 32
  /-- `CFG.FS_KHZ` (R29, R44). -/
  fsKhz : BitVec 5
  /-- `CFG.NB_SUBFR` (R29, R44). -/
  nbSubfr : BitVec 3
deriving DecidableEq, Repr

/-- `IDX_STATUS` (R31). -/
structure IdxStatus where
  valid : Bool
  mode : BitVec 2
  vad : Bool
deriving DecidableEq, Repr

/-- The index bank, `SideInfoIndices` (R32). -/
structure IndexBank where
  /-- `SIGNAL_TYPE`: 0 inactive, 1 unvoiced, 2 voiced. -/
  signalType : BitVec 2
  quantOffsetType : BitVec 1
  /-- `GAINS_INDEX[0..3]`, signed. -/
  gainsIndex : Vector (BitVec 8) 4
  /-- `NLSF_INDEX[0..16]`, signed. -/
  nlsfIndex : Vector (BitVec 8) 17
  nlsfInterpCoef : BitVec 3
  /-- `LAG_INDEX`, signed. -/
  lagIndex : BitVec 16
  contourIndex : BitVec 6
  perIndex : BitVec 2
  ltpIndex : Vector (BitVec 5) 4
  ltpScaleIndex : BitVec 2
  seed : BitVec 2
deriving DecidableEq, Repr

/-- The decoder-control bank, `DecoderControl` (R37). Every field is signed. -/
structure ControlBank where
  gainQ16 : Vector (BitVec 32) 4
  pitchLag : Vector (BitVec 32) 4
  ltpScaleQ14 : BitVec 32
  /-- `PRED_COEF_Q12[0]`, the first half-frame. -/
  predCoef0 : Vector (BitVec 16) 16
  /-- `PRED_COEF_Q12[1]`, the second half-frame. -/
  predCoef1 : Vector (BitVec 16) 16
  /-- `LTP_COEF_Q14[0..19]`: element `5 k + i` is tap `i` of subframe `k`. -/
  ltpCoefQ14 : Vector (BitVec 16) 20
deriving DecidableEq, Repr

/-- The stored bits of `STATUS` (R42). `BUSY` is not stored: it is 1 exactly when the sequencer runs (R48). -/
structure Status where
  done : Bool
  errCmd : Bool
  errConfig : Bool
  errSeq : Bool
  errSymbol : Bool
  errBusy : Bool
  errArg : Bool
  errBus : Bool
deriving DecidableEq, Repr

/-- `ERR_INFO`: the first error since the error bits were last all clear (R46). -/
structure ErrInfo where
  code : BitVec 4
  op : BitVec 4
  tid : Tid
  symval : Byte
deriving DecidableEq, Repr

/-- The two commands that make symbol requests (R48). -/
inductive RunOp where
  | decidx
  | decfrm
deriving DecidableEq, Repr

/-- `step` of R48: which response of R111 the running command waits for. A step of two symbols carries the value
of the first. -/
inductive SeqStep where
  /-- The combined signal-type and offset symbol (R112). -/
  | signalType
  /-- Gain 0 as a delta, conditional coding (R113). -/
  | gainDelta0
  /-- Gain 0, the most significant bits (R113). -/
  | gainMsb
  /-- Gain 0, the least significant bits, after `msb` (R113). -/
  | gainLsb (msb : Byte)
  /-- Gain `k`, a delta (R114). -/
  | gainDelta (k : Nat)
  /-- The stage-1 NLSF index (R116). -/
  | stage1
  /-- The residual of coefficient `i` (R118). -/
  | residual (i : Nat)
  /-- The extension of coefficient `i`, whose residual symbol was `x` (R119). -/
  | extension (i : Nat) (x : Byte)
  /-- The interpolation factor (R121). -/
  | interp
  /-- The delta pitch lag (R124). -/
  | pitchDelta
  /-- The absolute pitch lag, high part (R126). -/
  | pitchHigh
  /-- The absolute pitch lag, low bits, after the high part `h` (R126). -/
  | pitchLow (h : Byte)
  /-- The contour index (R128). -/
  | contour
  /-- The periodicity index (R129). -/
  | periodicity
  /-- The LTP gain index of subframe `k` (R129). -/
  | ltpGain (k : Nat)
  /-- The LTP scale index (R131). -/
  | ltpScale
  /-- The excitation seed (R132). -/
  | seed
deriving DecidableEq, Repr

/-- The staged copies of a running command (R49). -/
structure Staged where
  bank : IndexBank
  prevLagIndex : BitVec 16
  prevSignalType : BitVec 2
deriving DecidableEq, Repr

/-- A running command: `RUNNING(op, step, pending)` (R48), the latched operands (R50), the staged copies (R49) and
the symbol request port (R92). `pending` is the table id of the outstanding request; `response` is the value the
Symbol Decoder has answered and the block has not accepted yet. -/
structure Run where
  op : RunOp
  mode : BitVec 2
  vad : Bool
  step : SeqStep
  pending : Tid
  response : Option Byte
  staged : Staged
deriving DecidableEq, Repr

/-- The hidden sequencer (R48). -/
inductive Sequencer where
  | idle
  | running (r : Run)
deriving DecidableEq, Repr

/-- The width of a host access: only 32 bits are served (R62). -/
inductive AccessWidth where
  | byte
  | half
  | word
  /-- Any width above 32 bits. -/
  | wider
deriving DecidableEq, Repr

/-- One host access to the register window (R60, R62). The data of a write is what its low 32 lanes carry. -/
inductive BusAccess where
  | read (width : AccessWidth) (offset : Offset)
  | write (width : AccessWidth) (offset : Offset) (data : Word)
deriving DecidableEq, Repr

/-- One step of one agent (R286). -/
inductive Event where
  /-- The host performs one access. -/
  | host (a : BusAccess)
  /-- The Symbol Decoder answers the outstanding request with `v`. -/
  | respond (v : Byte)
  /-- The block accepts a waiting response; with none waiting it does nothing. -/
  | block
  /-- The platform asserts power-on reset (R270). -/
  | powerOn
deriving DecidableEq, Repr

/-- What the bus answered to the last host access: the data of a read, and whether the access was refused (R62). -/
structure BusReply where
  data : Option Word
  error : Bool
deriving DecidableEq, Repr

/-- The state of one block instance, with the model's own `agenda` and `busReply` (log 1, log 2). -/
structure State where
  channel : Channel
  idxStatus : IdxStatus
  idx : IndexBank
  /-- `DC_STATUS.VALID` (R36). -/
  dcValid : Bool
  dc : ControlBank
  status : Status
  /-- `CTRL.IRQ_EN` (R43). -/
  irqEn : Bool
  errInfo : ErrInfo
  /-- `PM_ARG` (R47). -/
  pmArg : Word
  /-- `PM_LAG[0..3]`, signed (R47). -/
  pmLag : Vector (BitVec 32) 4
  seq : Sequencer
  /-- The agents' next steps, in the order the environment has chosen; `[]` when nobody moves. -/
  agenda : List Event
  /-- The bus's answer to the last host access, if there was one. -/
  busReply : Option BusReply
deriving DecidableEq, Repr

/-- Why a step stops. No command stops the machine: an error of the hardware is recorded in `STATUS` (R240). -/
inductive Fault where
  /-- Raised by `step` when the agenda has the Symbol Decoder answer although no request awaits an answer. Its
  protocol rules that out (R92: each request gets exactly one response). Safe: the model stops where the spec says
  nothing. -/
  | unrequestedResponse
deriving DecidableEq, Repr

/-- Why a command has no meaning in the model. -/
inductive Refusal where
  /-- Raised by an arm of `exec` whose instruction has no meaning yet (no arm at present). Safe. -/
  | notModelled (mnemonic : String)
deriving DecidableEq, Repr

/-- The channel rows of R53. -/
def Channel.reset : Channel where
  prevNlsf := Vector.replicate 16 0
  lastGainIndex := 0
  prevLagIndex := 0
  prevSignalType := 0
  firstFrame := true
  lossCnt := 0
  fsKhz := 0
  nbSubfr := 0

/-- R33: every field of the index bank is 0 after reset. -/
def IndexBank.reset : IndexBank where
  signalType := 0
  quantOffsetType := 0
  gainsIndex := Vector.replicate 4 0
  nlsfIndex := Vector.replicate 17 0
  nlsfInterpCoef := 0
  lagIndex := 0
  contourIndex := 0
  perIndex := 0
  ltpIndex := Vector.replicate 4 0
  ltpScaleIndex := 0
  seed := 0

/-- R38: every field of the decoder-control bank is 0 after reset. -/
def ControlBank.reset : ControlBank where
  gainQ16 := Vector.replicate 4 0
  pitchLag := Vector.replicate 4 0
  ltpScaleQ14 := 0
  predCoef0 := Vector.replicate 16 0
  predCoef1 := Vector.replicate 16 0
  ltpCoefQ14 := Vector.replicate 20 0

/-- The machine right after power-on reset (R53, R280): it waits for a host access, nothing is staged and no
request is outstanding. -/
def State.reset : State where
  channel := Channel.reset
  idxStatus := { valid := false, mode := 0, vad := false }
  idx := IndexBank.reset
  dcValid := false
  dc := ControlBank.reset
  status := { done := false, errCmd := false, errConfig := false, errSeq := false, errSymbol := false,
              errBusy := false, errArg := false, errBus := false }
  irqEn := false
  errInfo := { code := 0, op := 0, tid := 0, symval := 0 }
  pmArg := 0
  pmLag := Vector.replicate 4 0
  seq := .idle
  agenda := []
  busReply := none

end Sys2Proof.Machine
end

