-- ==== Sys2Proof/Machine/Flags.lean ====
section
/-! DEFINITION. The flags of the block: `STATUS`, its error causes and `ERR_INFO` as words (R42, R46, R248),
write-1-to-clear (R42) and the interrupt line (R250). -/

namespace Sys2Proof.Machine

/-- The error causes (R248). -/
inductive ErrorCause where
  | cmd
  | config
  | seq
  | symbol
  | busy
  | arg
  | bus
deriving DecidableEq, Repr

/-- `CODE` of an error cause (R248). -/
def ErrorCause.code : ErrorCause → BitVec 4
  | .cmd => 1
  | .config => 2
  | .seq => 3
  | .symbol => 4
  | .busy => 5
  | .arg => 6
  | .bus => 7

/-- The error bit of a cause becomes 1; every other bit stays (R240: error bits are sticky). -/
def Status.setError (st : Status) : ErrorCause → Status
  | .cmd => { st with errCmd := true }
  | .config => { st with errConfig := true }
  | .seq => { st with errSeq := true }
  | .symbol => { st with errSymbol := true }
  | .busy => { st with errBusy := true }
  | .arg => { st with errArg := true }
  | .bus => { st with errBus := true }

/-- Whether the error bit of a cause is 1. -/
def Status.hasError (st : Status) : ErrorCause → Bool
  | .cmd => st.errCmd
  | .config => st.errConfig
  | .seq => st.errSeq
  | .symbol => st.errSymbol
  | .busy => st.errBusy
  | .arg => st.errArg
  | .bus => st.errBus

/-- Some of the seven error bits is 1. -/
def Status.anyError (st : Status) : Bool :=
  st.errCmd || st.errConfig || st.errSeq || st.errSymbol || st.errBusy || st.errArg || st.errBus

/-- A host write of `w` clears exactly the `DONE` and error bits written 1 (R42). -/
def Status.clearBits (st : Status) (w : Word) : Status where
  done := st.done && !w.getLsbD 1
  errCmd := st.errCmd && !w.getLsbD 8
  errConfig := st.errConfig && !w.getLsbD 9
  errSeq := st.errSeq && !w.getLsbD 10
  errSymbol := st.errSymbol && !w.getLsbD 11
  errBusy := st.errBusy && !w.getLsbD 12
  errArg := st.errArg && !w.getLsbD 13
  errBus := st.errBus && !w.getLsbD 14

/-- One bit of a word. -/
def bitAt (b : Bool) (n : Nat) : Word := (BitVec.ofBool b).setWidth 32 <<< n

/-- `STATUS` as the host reads it (R42). -/
def Status.toWord (st : Status) (busy : Bool) : Word :=
  bitAt busy 0 ||| bitAt st.done 1 ||| bitAt st.errCmd 8 ||| bitAt st.errConfig 9 |||
  bitAt st.errSeq 10 ||| bitAt st.errSymbol 11 ||| bitAt st.errBusy 12 ||| bitAt st.errArg 13 |||
  bitAt st.errBus 14

/-- `ERR_INFO` as the host reads it (R46). -/
def ErrInfo.toWord (e : ErrInfo) : Word := 0#8 ++ e.symval ++ 0#2 ++ e.tid ++ e.op ++ e.code

/-- `ERR_INFO` with nothing recorded (R46). -/
def ErrInfo.none : ErrInfo := { code := 0, op := 0, tid := 0, symval := 0 }

/-- `IDX_STATUS` as the host reads it (R31). -/
def IdxStatus.toWord (x : IdxStatus) : Word := 0#28 ++ BitVec.ofBool x.vad ++ x.mode ++ BitVec.ofBool x.valid

/-- The interrupt output: a pure function of `CTRL` and `STATUS` (R250). -/
def State.irq (s : State) : Bool := s.irqEn && (s.status.done || s.status.anyError)

end Sys2Proof.Machine
end

