-- ==== Sys2Proof/Config.lean ====
section
/-! DEFINITION. What one implementation of the block fixes and the spec leaves open (R8): the contents of
the read-only tables, as opaque constants. No proof can see what they are, so a claim holds for all of them. -/

namespace Sys2Proof

/-- The two NLSF codebooks: narrow/medium band and wide band (R30). -/
inductive Codebook where
  | nbmb
  | wb
deriving DecidableEq, Repr, Inhabited

/-- The open tables of R8 as one argument of the procedures that read them. A table is a total function of
its indices (R14: `RomRead` is total). The weights are stored less 1, so that every table of this type has all
its weights in 1 to 32767: a table with a weight that is not positive cannot be given (D16, D49). -/
structure Rom where
  /-- `CB1_Q8[cb][v][k]`, unsigned. -/
  cb1Q8 : Codebook → Nat → Nat → BitVec 8
  /-- `CB1_WGHT_Q9[cb][v][k] - 1`. -/
  cb1WghtLess1 : Codebook → Nat → Nat → Fin 32767
  /-- `EC_SEL[cb][v][j]`. -/
  ecSel : Codebook → Nat → Nat → BitVec 8
  /-- `PRED_Q8[cb][m]`, unsigned. -/
  predQ8 : Codebook → Nat → BitVec 8
  /-- `LTP_VQ_Q7[p][i][t]`, signed. -/
  ltpVqQ7 : Nat → Nat → Nat → BitVec 8
  /-- `NLSF2A(order, nlsf)[k]`: coefficient `k` of the result, for `k < order` (R170). -/
  nlsf2a : Nat → List (BitVec 16) → Nat → BitVec 16

namespace Config

/-- OPEN parameter `CB1_Q8` (R8, D22). -/
opaque cb1Q8 : Codebook → Nat → Nat → BitVec 8

/-- OPEN parameter `CB1_WGHT_Q9`, each entry less 1 (R8, D16, D49). -/
opaque cb1WghtLess1 : Codebook → Nat → Nat → Fin 32767

/-- OPEN parameter `EC_SEL` (R8, D22). -/
opaque ecSel : Codebook → Nat → Nat → BitVec 8

/-- OPEN parameter `PRED_Q8` (R8, D22). -/
opaque predQ8 : Codebook → Nat → BitVec 8

/-- OPEN parameter `LTP_VQ_Q7` (R8, D20). -/
opaque ltpVqQ7 : Nat → Nat → Nat → BitVec 8

/-- OPEN parameter `NLSF2A`, one result coefficient at a time (R8, R170, D18). -/
opaque nlsf2a : Nat → List (BitVec 16) → Nat → BitVec 16

/-- A free value: `CB` for a sample rate that is not legal, which R30 leaves undefined. No command uses it
(log 8). -/
opaque undefinedCodebook : Nat → Codebook

/-- A free value: what a table whose shape the spec fixes gives at an index outside that shape. No run from
reset reads it (log 5). -/
opaque beyondTable : Nat → Nat → Int

/-- The tables of this block. -/
def rom : Rom where
  cb1Q8 := cb1Q8
  cb1WghtLess1 := cb1WghtLess1
  ecSel := ecSel
  predQ8 := predQ8
  ltpVqQ7 := ltpVqQ7
  nlsf2a := nlsf2a

end Config

end Sys2Proof
end

