-- ==== Sys2Proof/Machine/FixedPoint.lean ====
section
/-! DEFINITION. The fixed-point helpers of R13 on integers of unbounded width (R12), and the packing of a
computed sequence into a register bank. -/

namespace Sys2Proof.Machine

/-- `asr(x, n)`: floor of `x / 2^n` (R13). -/
def asr (x : Int) (n : Nat) : Int := x / 2 ^ n

/-- `shl(x, n)`: exact (R13). -/
def shl (x : Int) (n : Nat) : Int := x * 2 ^ n

/-- `clamp(x, lo, hi)`, bounds in either order (R13). -/
def clamp (x lo hi : Int) : Int :=
  if lo ≤ hi then min (max x lo) hi else min (max x hi) lo

/-- `sext_16(v)` (R11). -/
def sext16 (x : Int) : Int := (BitVec.ofInt 16 x).toInt

/-- `wrap16(v)`: `v` modulo 2^16 into the signed range (R11). -/
def wrap16 (x : Int) : Int := sext16 x

/-- `sat16(x)` (R13). -/
def sat16 (x : Int) : Int := clamp x (-32768) 32767

/-- `rshift_round(x, n)` for `n` at least 1: round half up (R13). -/
def rshiftRound (x : Int) (n : Nat) : Int :=
  if n = 1 then asr x 1 + x % 2 else asr (asr x (n - 1) + 1) 1

/-- `smulwb(a, b)`: the top of a 32 by 16 bit product (R13). -/
def smulwb (a b : Int) : Int := asr (a * sext16 b) 16

/-- `smlawb(a, b, c)` (R13). -/
def smlawb (a b c : Int) : Int := a + smulwb b c

/-- `div_trunc(a, b)`: division rounding toward zero (R13). -/
def divTrunc (a b : Int) : Int := Int.tdiv a b

/-- The vector of `n` elements whose element `k` is `f k`. -/
def tabulate {α : Type} (n : Nat) (f : Nat → α) : Vector α n :=
  ⟨((List.range n).map f).toArray, by simp⟩

/-- A computed sequence as a bank of `n` registers of `w` bits, the registers past its end 0 (D26, D28). -/
def pack (w n : Nat) (xs : List Int) : Vector (BitVec w) n :=
  tabulate n fun k => BitVec.ofInt w (xs.getD k 0)

end Sys2Proof.Machine
end

