-- ==== Sys2Proof/Machine/Tables.lean ====
section
/-! DEFINITION. The constants of R7 and the tables whose contents the spec gives: alphabet sizes (R93), minimum
deltas (R166), contour offsets (R203), LTP scales (R175) and the gain look-up (R154). -/

namespace Sys2Proof.Machine

/-- `LTP_ORDER` (R7). -/
def ltpOrder : Nat := 5

/-- `NLSF_QUANT_MAX_AMPLITUDE` (R7). -/
def nlsfQuantMaxAmplitude : Int := 4

/-- `NLSF_QUANT_LEVEL_ADJ_Q10` (R7). -/
def nlsfQuantLevelAdjQ10 : Int := 102

/-- `QSTEP_Q16(cb)` (R158). -/
def qstepQ16 : Codebook → Int
  | .nbmb => 11796
  | .wb => 9830

/-- `NLSF_STAB_MAX_LOOPS` (R7). -/
def nlsfStabMaxLoops : Nat := 20

/-- `PE_MIN_LAG_MS` (R7). -/
def peMinLagMs : Int := 2

/-- `PE_MAX_LAG_MS` (R7). -/
def peMaxLagMs : Int := 18

/-- `N_LEVELS_QGAIN` (R7). -/
def nLevelsQgain : Int := 64

/-- `MIN_DELTA_GAIN_QUANT` (R7). -/
def minDeltaGainQuant : Int := -4

/-- `MAX_DELTA_GAIN_QUANT` (R7). -/
def maxDeltaGainQuant : Int := 36

/-- `GAIN_INV_SCALE_Q16` (R7). -/
def gainInvScaleQ16 : Int := 1907825

/-- `GAIN_OFFSET_Q7` (R7). -/
def gainOffsetQ7 : Int := 2090

/-- `GAIN_LOG_MAX_Q7` (R7). -/
def gainLogMaxQ7 : Int := 3967

/-- `BWE_AFTER_LOSS_Q16` (R7, R173). -/
def bweAfterLossQ16 : Int := 63570

/-- An element of a table whose shape the spec fixes; outside the shape, a free value (log 5). -/
def tableRead (t : List Int) (row i : Nat) : Int :=
  match t[i]? with
  | some v => v
  | none => Config.beyondTable row i

/-- `LTP_SCALE_Q14[0..2]` (R175). -/
def ltpScaleTable : List Int := [15565, 12288, 8192]

/-- `ALPHABET(tid)` for tid 0 to 41 (R93). -/
def alphabetTable : List Int :=
  [2, 4, 8, 8, 8, 8, 41, 32, 32, 32, 32] ++
  [9, 9, 9, 9, 9, 9, 9, 9] ++ [9, 9, 9, 9, 9, 9, 9, 9] ++
  [7, 5, 21, 32, 4, 6, 11, 3, 34, 12, 3, 8, 16, 32, 3]

/-- `ALPHABET(tid)` (R93). Ids 42 to 63 are never requested (R94) and have no alphabet. -/
def alphabet (tid : Tid) : Int := tableRead alphabetTable 0 tid.toNat

/-- `DELTAMIN_Q15(cb)`, the default contents (R166; log 6). -/
def deltaMinQ15 : Codebook → List Int
  | .nbmb => [250, 3, 6, 3, 3, 3, 4, 3, 3, 3, 461]
  | .wb => [100, 3, 40, 3, 3, 3, 5, 14, 14, 10, 11, 3, 8, 9, 7, 3, 347]

/-- The constraint of R166 on a minimum-delta table: every entry at least 1, the last at least 2, the sum at most
32768. -/
def deltaMinLegal (d : List Int) : Bool :=
  d.all (1 ≤ ·) && decide (2 ≤ d.getLastD 0) && decide (d.sum ≤ 32768)

/-- `CONTOUR_NB_20MS` (R203; log 6). -/
def contourNb20ms : List (List Int) :=
  [[0, 2, -1, -1, -1, 0, 0, 1, 1, 0, 1],
   [0, 1, 0, 0, 0, 0, 0, 1, 0, 0, 0],
   [0, 0, 1, 0, 0, 0, 1, 0, 0, 0, 0],
   [0, -1, 2, 1, 0, 1, 1, 0, 0, -1, -1]]

/-- `CONTOUR_NB_10MS` (R203; log 6). -/
def contourNb10ms : List (List Int) :=
  [[0, 1, 0],
   [0, 0, 1]]

/-- `CONTOUR_WB_20MS` (R203; log 6). -/
def contourWb20ms : List (List Int) :=
  [[0, 0, 1, -1, 0, 1, -1, 0, -1, 1, -2, 2, -2, -2, 2, -3, 2] ++
    [3, -3, -4, 3, -4, 4, 4, -5, 5, -6, -5, 6, -7, 6, 5, 8, -9],
   [0, 0, 1, 0, 0, 0, 0, 0, 0, 0, -1, 1, 0, 0, 1, -1, 0] ++
    [1, -1, -1, 1, -1, 2, 1, -1, 2, -2, -2, 2, -2, 2, 2, 3, -3],
   [0, 1, 0, 0, 0, 0, 0, 0, 1, 0, 1, 0, 0, 1, -1, 1, 0] ++
    [0, 2, 1, -1, 2, -1, -1, 2, -1, 2, 2, -1, 3, -2, -3, -3, 3],
   [0, 1, 0, 1, -1, 1, -1, 1, 0, -1, 2, -1, 2, 2, -2, 3, -1] ++
    [-3, 3, 4, -3, 4, -3, -4, 4, -5, 5, 6, -5, 7, -5, -6, -7, 9]]

/-- `CONTOUR_WB_10MS` (R203; log 6). -/
def contourWb10ms : List (List Int) :=
  [[0, 0, 1, -1, 1, -1, 2, -2, 2, -2, 3, -3],
   [0, 1, 0, 1, -1, 2, -1, 2, -2, 3, -2, 3]]

/-- `log2lin(x)`: `2^(x / 128)` for `x` in Q7 log2 units (R154). -/
def log2lin (x : Int) : Int :=
  if x < 0 then 0
  else if 3967 ≤ x then 2 ^ 31 - 1
  else
    let i := asr x 7
    let f := x % 128
    let out : Int := shl 1 i.toNat
    if x < 2048 then out + asr (out * smlawb f (f * (128 - f)) (-174)) 7
    else out + asr out 7 * smlawb f (f * (128 - f)) (-174)

/-- `GAIN_LUT[k]` (R154). -/
def gainLut (k : Int) : Int :=
  log2lin (min (smulwb gainInvScaleQ16 k + gainOffsetQ7) gainLogMaxQ7)

end Sys2Proof.Machine
end

