-- ==== Sys2Proof/Machine/Operands.lean ====
section
/-! DEFINITION. Operand assembly (R88): what the commands derive from `CFG` (R29, R30) and `PM_ARG`, and the
table-selection functions (R95). -/

namespace Sys2Proof.Machine

/-- A legal internal sample rate in kHz (R7, R29). -/
def fsLegal (fs : Nat) : Bool := fs == 8 || fs == 12 || fs == 16

/-- A legal subframe count (R7, R29). -/
def nsfLegal (nsf : Nat) : Bool := nsf == 2 || nsf == 4

/-- `CFG_OK` (R29). -/
def Channel.cfgOk (c : Channel) : Bool := fsLegal c.fsKhz.toNat && nsfLegal c.nbSubfr.toNat

/-- `LPC_ORDER` (R30): 0 when the sample rate is not legal. -/
def lpcOrder (fs : Nat) : Nat := if fs = 16 then 16 else if fs = 8 ∨ fs = 12 then 10 else 0

/-- `CB` (R30). For a sample rate that is not legal `CB` is undefined and no command uses it: a free value (log 8). -/
def codebookOf (fs : Nat) : Codebook :=
  if fs = 16 then .wb else if fs = 8 ∨ fs = 12 then .nbmb else Config.undefinedCodebook fs

/-- The order of a codebook (R115). -/
def codebookOrder : Codebook → Nat
  | .nbmb => 10
  | .wb => 16

/-- `CB_WB` (R44): it reads 0 while `CFG_OK` is 0, as part 1 of 93_implementation_defined.md says (log 7). -/
def cbWb (fs nsf : Nat) : Bool := fs == 16 && nsfLegal nsf

/-- `conditional` (R82). -/
def conditionalMode (mode : BitVec 2) : Bool := mode == 2

/-- `decode_ltps` (R82). -/
def decodesLtpScale (mode : BitVec 2) : Bool := mode == 0

/-- `TID_TYPE(VAD)` (R95). -/
def tidType (vad : Bool) : Tid := if vad then 1 else 0

/-- `TID_GAIN_MSB(st)` (R95). -/
def tidGainMsb (st : BitVec 2) : Tid := 2 + st.setWidth 6

/-- `TID_CB1(st)`: the voicing bit is bit 1 of the signal type (R95). -/
def tidCb1 (cb : Codebook) (st : BitVec 2) : Tid :=
  7 + (if cb = .wb then 2 else 0) + (st >>> 1).setWidth 6

/-- `TID_RES(sel)` (R95). -/
def tidRes (cb : Codebook) (sel : BitVec 3) : Tid :=
  11 + (if cb = .wb then 8 else 0) + sel.setWidth 6

/-- `TID_LOWBITS(fs)` (R95). -/
def tidLowbits (fs : Nat) : Tid := if fs = 8 then 31 else if fs = 12 then 32 else 5

/-- `TID_CONTOUR(fs, nsf)` (R95). -/
def tidContour (fs nsf : Nat) : Tid :=
  if fs = 8 then (if nsf = 4 then 33 else 34) else (if nsf = 4 then 35 else 36)

/-- `TID_LTP_GAIN(per)` (R95). -/
def tidLtpGain (per : BitVec 2) : Tid := 38 + per.setWidth 6

/-- `CONTOUR_SIZE(fs, nsf)` (R202). -/
def contourSize (fs nsf : Nat) : Nat :=
  if fs = 8 then (if nsf = 4 then 11 else 3) else (if nsf = 4 then 34 else 12)

/-- `ContourTable(fs, nsf)` (R202). -/
def contourTable (fs nsf : Nat) : List (List Int) :=
  if fs = 8 then (if nsf = 4 then contourNb20ms else contourNb10ms)
  else (if nsf = 4 then contourWb20ms else contourWb10ms)

/-- `pm_lag` (R88). -/
def pmLagIndex (w : Word) : Int := (w.extractLsb' 0 16).toInt

/-- `pm_contour` (R88). -/
def pmContour (w : Word) : Nat := (w.extractLsb' 16 6).toNat

/-- `pm_rsvd` (R88). -/
def pmRsvd (w : Word) : BitVec 2 := w.extractLsb' 22 2

/-- `pm_fs` (R88). -/
def pmFs (w : Word) : Nat := (w.extractLsb' 24 5).toNat

/-- `pm_nsf` (R88). -/
def pmNsf (w : Word) : Nat := (w.extractLsb' 29 3).toNat

/-- `pm_legal(PM_ARG)` (R88). -/
def pmLegal (w : Word) : Bool :=
  pmRsvd w == 0 && fsLegal (pmFs w) && nsfLegal (pmNsf w) &&
    decide (pmContour w < contourSize (pmFs w) (pmNsf w))

/-- The word of the pseudo-instruction `PM <lag>, <contour>, <fs>, <nsf>` (R90). -/
def pmWord (lag : BitVec 16) (contour : BitVec 6) (fs : BitVec 5) (nsf : BitVec 3) : Word :=
  nsf ++ fs ++ 0#2 ++ contour ++ lag

end Sys2Proof.Machine
end

