-- ==== Sys2Proof/Machine/Ops.lean ====
section
/-! DEFINITION. The named operations over the state that the commands share: recording an error and ending a
command (R240, the block's only trap entry, R251), clearing status bits (its trap return, R251), the issue checks
(R85), the resets, and the commits (R130, R177). -/

namespace Sys2Proof.Machine

/-- `STATUS.BUSY`: 1 exactly when the sequencer is `RUNNING` (R48). -/
def State.busy (s : State) : Bool :=
  match s.seq with
  | .idle => false
  | .running _ => true

/-- `op` of a running command as an opcode (R134). -/
def RunOp.code : RunOp → BitVec 4
  | .decidx => 2
  | .decfrm => 4

/-- The opcode of the running command; 0 while idle (R245 uses it only while BUSY). -/
def State.runningOp (s : State) : BitVec 4 :=
  match s.seq with
  | .idle => 0
  | .running r => r.op.code

/-- `RecordError` (R240): `ERR_INFO` keeps the first error, the cause's bit becomes 1. -/
def recordError (c : ErrorCause) (op : BitVec 4) (tid : Tid) (val : Byte) (s : State) : State :=
  { s with
    errInfo := if s.errInfo.code = 0 then { code := c.code, op := op, tid := tid, symval := val } else s.errInfo
    status := s.status.setError c }

/-- The sequencer goes to `IDLE`, dropping every staged value and the port (R49, R53). -/
def goIdle (s : State) : State := { s with seq := .idle }

/-- `STATUS.DONE <- 1`. -/
def setDone (s : State) : State := { s with status := { s.status with done := true } }

/-- `EndCommandWithError` (R240): TAKING AN EXCEPTION, for an accepted command. -/
def endCommandWithError (c : ErrorCause) (op : BitVec 4) (tid : Tid) (val : Byte) (s : State) : State :=
  setDone (recordError c op tid val (goIdle s))

/-- A host write to `STATUS`: the bits written 1 clear, and when no error bit is left `ERR_INFO` is cleared (R46).
It is the block's RETURN from an exception (R251). -/
def clearStatus (w : Word) (s : State) : State :=
  { s with
    status := s.status.clearBits w
    errInfo := if (s.status.clearBits w).anyError then s.errInfo else ErrInfo.none }

/-- `IssueCommand` (R85) for the opcode `op`: refused while BUSY, without `DONE` (R245); else accepted, and then
ended with the first error that `check` finds, or `run`. -/
def issue (op : BitVec 4) (check : State → Option ErrorCause) (run : State → State) (s : State) : State :=
  if s.busy then recordError .busy op 0 0 s
  else match check s with
    | some c => endCommandWithError c op 0 0 s
    | none => run s

/-- A legal command word with no check of its own (R85). -/
def checkNothing (_ : State) : Option ErrorCause := none

/-- The checks of a command that takes `MODE` and needs a legal configuration (R84, R242). -/
def checkModeAndConfig (mode : BitVec 2) (s : State) : Option ErrorCause :=
  if mode = 3 then some .cmd else if s.channel.cfgOk then none else some .config

/-- The checks of `RECON` (R242, R243). -/
def checkRecon (s : State) : Option ErrorCause :=
  if s.channel.cfgOk then (if s.idxStatus.valid then none else some .seq) else some .config

/-- The check of `PITCHMAP` (R246). -/
def checkPitchmap (s : State) : Option ErrorCause := if pmLegal s.pmArg then none else some .arg

/-- The channel rows of R53, as the RESET command writes them (R221). -/
def resetChannel (s : State) : State :=
  { s with
    channel :=
      { prevNlsf := Vector.replicate 16 0, lastGainIndex := 0, prevLagIndex := 0, prevSignalType := 0,
        firstFrame := true, lossCnt := 0, fsKhz := 0, nbSubfr := 0 }
    idx :=
      { signalType := 0, quantOffsetType := 0, gainsIndex := Vector.replicate 4 0,
        nlsfIndex := Vector.replicate 17 0, nlsfInterpCoef := 0, lagIndex := 0, contourIndex := 0,
        perIndex := 0, ltpIndex := Vector.replicate 4 0, ltpScaleIndex := 0, seed := 0 }
    idxStatus := { valid := false, mode := 0, vad := false }
    dc :=
      { gainQ16 := Vector.replicate 4 0, pitchLag := Vector.replicate 4 0, ltpScaleQ14 := 0,
        predCoef0 := Vector.replicate 16 0, predCoef1 := Vector.replicate 16 0,
        ltpCoefQ14 := Vector.replicate 20 0 }
    dcValid := false }

/-- Power-on reset (R270, R280): the state of R53, and the agents' later steps still to come. -/
def powerOnReset (s : State) : State := { State.reset with agenda := s.agenda }

/-- The writes of DECIDX's commit (R130). -/
def commitIndices (mode : BitVec 2) (vad : Bool) (st : Staged) (s : State) : State :=
  { s with
    idx := st.bank
    idxStatus := { valid := true, mode := mode, vad := vad }
    channel := { s.channel with prevLagIndex := st.prevLagIndex, prevSignalType := st.prevSignalType } }

/-- What RECON computes before its commit (R150). -/
structure ReconResult where
  bank : ControlBank
  lastGainIndex : BitVec 8
  prevNlsf : Vector (BitVec 16) 16
  nlsfInterpCoef : BitVec 3
  perIndex : BitVec 2
deriving DecidableEq, Repr

/-- The writes of RECON's commit (R177). -/
def commitRecon (r : ReconResult) (s : State) : State :=
  { s with
    dc := r.bank
    dcValid := true
    channel := { s.channel with
      lastGainIndex := r.lastGainIndex, prevNlsf := r.prevNlsf, firstFrame := false, lossCnt := 0 }
    idx := { s.idx with nlsfInterpCoef := r.nlsfInterpCoef, perIndex := r.perIndex }
    idxStatus := { s.idxStatus with valid := false } }

/-- A host write to `CFG` (R29, R44): refused while BUSY (R245), else both fields are set at once and the index
bank is no longer valid. -/
def writeCfg (w : Word) (s : State) : State :=
  if s.busy then recordError .busy s.runningOp 0 0 s
  else
    { s with
      channel := { s.channel with fsKhz := w.extractLsb' 0 5, nbSubfr := w.extractLsb' 8 3 }
      idxStatus := { s.idxStatus with valid := false } }

/-- A host write to `LOSS_CNT` (R28): refused while BUSY (R245). -/
def writeLossCnt (w : Word) (s : State) : State :=
  if s.busy then recordError .busy s.runningOp 0 0 s
  else { s with channel := { s.channel with lossCnt := w } }

/-- A host write to `CTRL` (R43). -/
def writeCtrl (w : Word) (s : State) : State := { s with irqEn := w.getLsbD 0 }

/-- A host write to `PM_ARG` (R47). -/
def writePmArg (w : Word) (s : State) : State := { s with pmArg := w }

/-- The bus's answer to a host access (R62). -/
def setReply (r : BusReply) (s : State) : State := { s with busReply := some r }

/-- The agents' later steps. -/
def setAgenda (es : List Event) (s : State) : State := { s with agenda := es }

end Sys2Proof.Machine
end

