-- ==== Sys2Proof/Machine/IndexDecoder.lean ====
section
/-! DEFINITION. The Index Decoder (DECIDX, R110 to R139) as the sequencer runs it: which symbol is asked for
next, and what each response does to the staged copies. -/

namespace Sys2Proof.Machine

/-- What the procedure of R111 reads besides the symbols: the latched operands (R50), `CFG` and the pre-command
channel state. -/
structure FrameContext where
  mode : BitVec 2
  vad : Bool
  fs : Nat
  nsf : Nat
  prevSignalType : BitVec 2
  prevLagIndex : BitVec 16
deriving DecidableEq, Repr

/-- The context of a command with operands `mode` and `vad` in a channel state. -/
def frameContext (mode : BitVec 2) (vad : Bool) (ch : Channel) : FrameContext where
  mode := mode
  vad := vad
  fs := ch.fsKhz.toNat
  nsf := ch.nbSubfr.toNat
  prevSignalType := ch.prevSignalType
  prevLagIndex := ch.prevLagIndex

/-- `sel[i]` of `NlsfUnpack` (R117): the entropy selector of coefficient `i`. -/
def nlsfSel (rom : Rom) (cb : Codebook) (i0 i : Nat) : BitVec 3 :=
  let e := rom.ecSel cb i0 (i / 2)
  if i % 2 = 0 then e.extractLsb' 1 3 else e.extractLsb' 5 3

/-- `pred[i]` of `NlsfUnpack` (R117): the backward-prediction coefficient of coefficient `i`; 0 for the last
(D39). -/
def nlsfPred (rom : Rom) (cb : Codebook) (i0 i : Nat) : Int :=
  let e := rom.ecSel cb i0 (i / 2)
  let second := if i % 2 = 0 then e.getLsbD 0 else e.getLsbD 4
  if i + 1 = codebookOrder cb then 0
  else ((rom.predQ8 cb (i + if second then codebookOrder cb - 1 else 0)).toNat : Int)

/-- The table id of the request that `step` waits on (R111, R95). -/
def requestTid (rom : Rom) (c : FrameContext) (st : Staged) : SeqStep → Tid
  | .signalType => tidType c.vad
  | .gainDelta0 => 6
  | .gainMsb => tidGainMsb st.bank.signalType
  | .gainLsb _ => 5
  | .gainDelta _ => 6
  | .stage1 => tidCb1 (codebookOf c.fs) st.bank.signalType
  | .residual i => tidRes (codebookOf c.fs) (nlsfSel rom (codebookOf c.fs) st.bank.nlsfIndex[0].toNat i)
  | .extension _ _ => 27
  | .interp => 28
  | .pitchDelta => 29
  | .pitchHigh => 30
  | .pitchLow _ => tidLowbits c.fs
  | .contour => tidContour c.fs c.nsf
  | .periodicity => 37
  | .ltpGain _ => tidLtpGain st.bank.perIndex
  | .ltpScale => 41
  | .seed => 31

/-- What follows an accepted response: the next request, or the end of the procedure. -/
inductive Progress where
  | ask (step : SeqStep) (st : Staged)
  | finished (st : Staged)
deriving DecidableEq, Repr

/-- The gains from subframe `k` on, then the NLSF stage-1 index (R114, R116). -/
def askGain (c : FrameContext) (k : Nat) (st : Staged) : Progress :=
  if k < c.nsf then .ask (.gainDelta k) st else .ask .stage1 st

/-- The seed, the last request of every frame; the signal type is staged as the next frame's previous one just
before it (R132, R133). -/
def askSeed (st : Staged) : Progress :=
  .ask .seed { st with prevSignalType := st.bank.signalType }

/-- The LTP gains from subframe `k` on, then the LTP scale index, coded only in `MODE` 0 (R129, R131). -/
def askLtp (c : FrameContext) (k : Nat) (st : Staged) : Progress :=
  if k < c.nsf then .ask (.ltpGain k) st
  else if decodesLtpScale c.mode then .ask .ltpScale st
  else askSeed { st with bank := { st.bank with ltpScaleIndex := 0 } }

/-- Step 5: a voiced frame's pitch lag, first as a delta when the mode is conditional and the previous frame was
voiced (R123); any other frame keeps `PREV_LAG_INDEX` (R127). -/
def askPitch (c : FrameContext) (st : Staged) : Progress :=
  if st.bank.signalType = 2 then
    if conditionalMode c.mode ∧ c.prevSignalType = 2 then .ask .pitchDelta st else .ask .pitchHigh st
  else askSeed { st with prevLagIndex := c.prevLagIndex }

/-- Step 4: the interpolation factor, coded only with 4 subframes, else 4 (R121). -/
def askInterp (c : FrameContext) (st : Staged) : Progress :=
  if c.nsf = 4 then .ask .interp st
  else askPitch c { st with bank := { st.bank with nlsfInterpCoef := 4 } }

/-- The residuals from coefficient `i` on, then step 4 (R118). -/
def askResidual (c : FrameContext) (i : Nat) (st : Staged) : Progress :=
  if i < lpcOrder c.fs then .ask (.residual i) st else askInterp c st

/-- `GAINS_INDEX[k] <- v`. -/
def stageGain (k : Nat) (v : Int) (st : Staged) : Staged :=
  { st with bank := { st.bank with gainsIndex := st.bank.gainsIndex.setIfInBounds k (BitVec.ofInt 8 v) } }

/-- `NLSF_INDEX[k] <- v`. -/
def stageNlsf (k : Nat) (v : Int) (st : Staged) : Staged :=
  { st with bank := { st.bank with nlsfIndex := st.bank.nlsfIndex.setIfInBounds k (BitVec.ofInt 8 v) } }

/-- `LAG_INDEX <- v`, wrapped to 16 bits, staged as the next frame's previous lag index too (R127). -/
def stageLag (v : Int) (st : Staged) : Staged :=
  { st with bank := { st.bank with lagIndex := BitVec.ofInt 16 v }, prevLagIndex := BitVec.ofInt 16 v }

/-- `LTP_INDEX[k] <- v`. -/
def stageLtp (k : Nat) (v : Byte) (st : Staged) : Staged :=
  { st with bank := { st.bank with ltpIndex := st.bank.ltpIndex.setIfInBounds k (v.setWidth 5) } }

/-- `SIGNAL_TYPE` and `QUANT_OFFSET_TYPE` from the combined index `ix` (R112). -/
def stageSignalType (ix : Byte) (st : Staged) : Staged :=
  { st with bank := { st.bank with
      signalType := ix.extractLsb' 1 2, quantOffsetType := ix.extractLsb' 0 1 } }

/-- The effect of one accepted, in-range response `v` on a procedure that waits at `step` (R111). -/
def absorb (c : FrameContext) (v : Byte) (st : Staged) : SeqStep → Progress
  | .signalType =>
    let st' := stageSignalType (v + if c.vad then 2 else 0) st
    if conditionalMode c.mode then .ask .gainDelta0 st' else .ask .gainMsb st'
  | .gainDelta0 => askGain c 1 (stageGain 0 v.toNat st)
  | .gainMsb => .ask (.gainLsb v) st
  | .gainLsb msb => askGain c 1 (stageGain 0 (shl msb.toNat 3 + v.toNat) st)
  | .gainDelta k => askGain c (k + 1) (stageGain k v.toNat st)
  | .stage1 => askResidual c 0 (stageNlsf 0 v.toNat st)
  | .residual i =>
    if v = 0 ∨ v = 8 then .ask (.extension i v) st
    else askResidual c (i + 1) (stageNlsf (i + 1) (v.toNat - nlsfQuantMaxAmplitude) st)
  | .extension i x =>
    let full : Int := if x = 0 then x.toNat - v.toNat else x.toNat + v.toNat
    askResidual c (i + 1) (stageNlsf (i + 1) (full - nlsfQuantMaxAmplitude) st)
  | .interp => askPitch c { st with bank := { st.bank with nlsfInterpCoef := v.setWidth 3 } }
  | .pitchDelta =>
    if v = 0 then .ask .pitchHigh st
    else .ask .contour (stageLag (c.prevLagIndex.toInt + v.toNat - 9) st)
  | .pitchHigh => .ask (.pitchLow v) st
  | .pitchLow h => .ask .contour (stageLag (h.toNat * asr c.fs 1 + v.toNat) st)
  | .contour => .ask .periodicity { st with bank := { st.bank with contourIndex := v.setWidth 6 } }
  | .periodicity => askLtp c 0 { st with bank := { st.bank with perIndex := v.setWidth 2 } }
  | .ltpGain k => askLtp c (k + 1) (stageLtp k v st)
  | .ltpScale => askSeed { st with bank := { st.bank with ltpScaleIndex := v.setWidth 2 } }
  | .seed => .finished { st with bank := { st.bank with seed := v.setWidth 2 } }

/-- The staged copies a command starts with: every index field 0 (R135), the channel's own values kept. -/
def initialStaged (ch : Channel) : Staged where
  bank :=
    { signalType := 0, quantOffsetType := 0, gainsIndex := Vector.replicate 4 0,
      nlsfIndex := Vector.replicate 17 0, nlsfInterpCoef := 0, lagIndex := 0, contourIndex := 0,
      perIndex := 0, ltpIndex := Vector.replicate 4 0, ltpScaleIndex := 0, seed := 0 }
  prevLagIndex := ch.prevLagIndex
  prevSignalType := ch.prevSignalType

/-- Starting the symbol exchange: the sequencer is `RUNNING` with the first request out (R110, R48). -/
def startRun (op : RunOp) (mode : BitVec 2) (vad : Bool) (s : State) : State :=
  let r : Run :=
    { op := op, mode := mode, vad := vad, step := .signalType, pending := tidType vad, response := none,
      staged := initialStaged s.channel }
  { s with seq := .running r }

/-- `DECIDX` (R110): the checks of R85, then the symbol exchange begins; `acceptResponse` carries it on. -/
def execDecidx (mode : BitVec 2) (vad : Bool) (s : State) : Host.Outcome State Fault Refusal :=
  .next (issue 2 (checkModeAndConfig mode) (startRun .decidx mode vad) s)

end Sys2Proof.Machine
end

