-- ==== Sys2Proof/Machine/Control.lean ====
section
/-! DEFINITION. The control commands (R220 to R224): NOP, RESET and DECFRM. -/

namespace Sys2Proof.Machine

/-- `NOP` (R220). -/
def execNop (s : State) : Host.Outcome State Fault Refusal :=
  .next (issue 0 checkNothing setDone s)

/-- The effect of an accepted RESET (R221). -/
def runReset (s : State) : State := setDone (resetChannel s)

/-- `RESET` (R221). -/
def execReset (s : State) : Host.Outcome State Fault Refusal :=
  .next (issue 1 checkNothing runReset s)

/-- `DECFRM` (R222): the same checks and the same symbol exchange as DECIDX; its end (`finishRun`) reconstructs the
frame as well. -/
def execDecfrm (mode : BitVec 2) (vad : Bool) (s : State) : Host.Outcome State Fault Refusal :=
  .next (issue 4 (checkModeAndConfig mode) (startRun .decfrm mode vad) s)

end Sys2Proof.Machine
end

