-- ==== Sys2Proof/Machine/PitchMapper.lean ====
section
/-! DEFINITION. The Pitch Lag Mapper (R200 to R207). -/

namespace Sys2Proof.Machine

/-- The pitch lag of subframe `k` (R201). -/
def pitchLagAt (lagIndex : Int) (contour fs nsf k : Nat) : Int :=
  let minLag := peMinLagMs * fs
  let maxLag := peMaxLagMs * fs
  clamp (minLag + lagIndex + tableRead ((contourTable fs nsf).getD k []) k contour) minLag maxLag

/-- `PitchMap(lagIndex, contour, fs, nsf)` (R201). -/
def pitchMap (lagIndex : Int) (contour fs nsf : Nat) : List Int :=
  (List.range nsf).map (pitchLagAt lagIndex contour fs nsf)

/-- `PM_LAG` as PITCHMAP writes it: 0 beyond the subframe count (R200). -/
def pitchMapResult (pmArg : Word) : Vector (BitVec 32) 4 :=
  pack 32 4 (pitchMap (pmLagIndex pmArg) (pmContour pmArg) (pmFs pmArg) (pmNsf pmArg))

/-- The effect of a PITCHMAP whose operands are legal (R200). -/
def runPitchmap (s : State) : State := setDone { s with pmLag := pitchMapResult s.pmArg }

/-- `PITCHMAP` (R200). -/
def execPitchmap (s : State) : Host.Outcome State Fault Refusal :=
  .next (issue 5 checkPitchmap runPitchmap s)

end Sys2Proof.Machine
end

