-- ==== Sys2Proof/Machine/Reconstructor.lean ====
section
/-! DEFINITION. The Parameter Reconstructor (RECON, R150 to R177). -/

namespace Sys2Proof.Machine

/-- One subframe of the gain dequantizer: the running index after it, clamped (R151 to R153). -/
def gainStep (absolute : Bool) (prev ind : Int) : Int :=
  let raw :=
    if absolute then max ind (prev - 16)
    else
      let t := ind + minDeltaGainQuant
      let thr := 2 * maxDeltaGainQuant - nLevelsQgain + prev
      if t > thr then prev + 2 * t - thr else prev + t
  clamp raw 0 (nLevelsQgain - 1)

/-- The running index after each subframe whose index is a delta (R151). -/
def gainDeltas (prev : Int) : List Int → List Int
  | [] => []
  | ind :: inds => gainStep false prev ind :: gainDeltas (gainStep false prev ind) inds

/-- The running index after each subframe: gain index 0 is absolute unless the mode is conditional (R151, R152). -/
def gainIndices (conditional : Bool) (last : Int) : List Int → List Int
  | [] => []
  | ind :: inds => gainStep (!conditional) last ind :: gainDeltas (gainStep (!conditional) last ind) inds

/-- `ResidualDequant` (R162) from the last coefficient to the first: each element of `xs` is an index with its
prediction coefficient, and the result of the tail predicts the head. -/
def residualDequant (qstep : Int) : List (Int × Int) → List Int
  | [] => []
  | (ind, pred) :: xs =>
    let above := residualDequant qstep xs
    let p := asr (above.headD 0 * pred) 8
    let q0 := shl ind 10
    let q := if q0 > 0 then q0 - nlsfQuantLevelAdjQ10
      else if q0 < 0 then q0 + nlsfQuantLevelAdjQ10 else q0
    wrap16 (p + smulwb q qstep) :: above

/-- `CB1_WGHT_Q9[cb][v][k]`, positive (R157). -/
def stage1Weight (rom : Rom) (cb : Codebook) (v k : Nat) : Int := ((rom.cb1WghtLess1 cb v k).val : Int) + 1

/-- One NLSF value before stabilization (R164, R165). -/
def nlsfValue (rom : Rom) (cb : Codebook) (i0 i : Nat) (res : Int) : Int :=
  clamp (divTrunc (shl res 14) (stage1Weight rom cb i0 i) + shl (rom.cb1Q8 cb i0 i).toNat 7) 0 32767

/-- The slacks of a vector against its minimum deltas (R167): slack `i` is the distance of element `i` above element
`i - 1` less `d[i]`, with 0 below the first element and 32768 above the last. -/
def slacks (below : Int) : List Int → List Int → List Int
  | [], d => [32768 - (below + d.headD 0)]
  | x :: xs, d => (x - (below + d.headD 0)) :: slacks x xs d.tail

/-- The first minimum of a list and its position: a later element wins only if strictly smaller (R167). -/
def firstMin (best : Int) (bestAt at_ : Nat) : List Int → Int × Nat
  | [] => (best, bestAt)
  | x :: xs => if x < best then firstMin x at_ (at_ + 1) xs else firstMin best bestAt (at_ + 1) xs

/-- The least slack of `x` and where it is (R167). -/
def leastSlack (d x : List Int) : Int × Nat :=
  match slacks 0 x d with
  | [] => (0, 0)
  | m :: ms => firstMin m 0 1 ms

/-- One corrective pass at position `i` of a vector of `x.length` elements (R167). -/
def stabilizePass (d x : List Int) (i : Nat) : List Int :=
  if i = 0 then x.set 0 (d.getD 0 0)
  else if i = x.length then x.set (x.length - 1) (32768 - d.getD x.length 0)
  else
    let half := asr (d.getD i 0) 1
    let minC := (d.take i).sum + half
    let maxC := 32768 - (d.drop (i + 1)).sum - half
    let c := clamp (rshiftRound (x.getD (i - 1) 0 + x.getD i 0) 1) minC maxC
    (x.set (i - 1) (c - half)).set i (c - half + d.getD i 0)

/-- Insertion into an increasing list. -/
def insertSorted (v : Int) : List Int → List Int
  | [] => [v]
  | x :: xs => if v ≤ x then v :: x :: xs else x :: insertSorted v xs

/-- The list in increasing order. -/
def sortIncreasing : List Int → List Int
  | [] => []
  | x :: xs => insertSorted x (sortIncreasing xs)

/-- The fallback's upward pass after the first element (R167): each element at least its lower neighbour plus the
minimum delta, that sum saturated. -/
def raiseFrom (below : Int) : List Int → List Int → List Int
  | [], _ => []
  | x :: xs, d => max x (sat16 (below + d.headD 0)) :: raiseFrom (max x (sat16 (below + d.headD 0))) xs d.tail

/-- The fallback's downward pass (R167): each element at most its upper neighbour less the minimum delta, with
32768 above the last. -/
def lowerFrom : List Int → List Int → List Int
  | [], _ => []
  | x :: xs, d => min x ((lowerFrom xs d.tail).headD 32768 - d.headD 0) :: lowerFrom xs d.tail

/-- The stabilizer's fallback (R167). -/
def stabilizeFallback (d x : List Int) : List Int :=
  match sortIncreasing x with
  | [] => []
  | y :: ys => lowerFrom (max y (d.headD 0) :: raiseFrom (max y (d.headD 0)) ys d.tail) d.tail

/-- At most `n` corrective passes, then the fallback (R167). -/
def stabilizeLoop (d : List Int) : Nat → List Int → List Int
  | 0, x => stabilizeFallback d x
  | n + 1, x =>
    if 0 ≤ (leastSlack d x).1 then x
    else stabilizeLoop d n (stabilizePass d x (leastSlack d x).2)

/-- `NlsfStabilize` (R167). -/
def nlsfStabilize (d x : List Int) : List Int := stabilizeLoop d nlsfStabMaxLoops x

/-- The residuals of a frame with their prediction coefficients, in coefficient order (R117, R160). -/
def residualInputs (rom : Rom) (cb : Codebook) (ind : Vector (BitVec 8) 17) : List (Int × Int) :=
  (List.range (codebookOrder cb)).map fun i =>
    ((ind.toList.getD (i + 1) 0).toInt, nlsfPred rom cb ind[0].toNat i)

/-- `NlsfDecode` (R156). -/
def nlsfDecode (rom : Rom) (cb : Codebook) (ind : Vector (BitVec 8) 17) : List Int :=
  let res := residualDequant (qstepQ16 cb) (residualInputs rom cb ind)
  nlsfStabilize (deltaMinQ15 cb)
    ((List.range (codebookOrder cb)).map fun i => nlsfValue rom cb ind[0].toNat i (res.getD i 0))

/-- `NLSF2A(order, x)` (R170), as the values of its `order` coefficients. -/
def nlsf2a (rom : Rom) (order : Nat) (x : List Int) : List Int :=
  (List.range order).map fun k => (rom.nlsf2a order (x.map (BitVec.ofInt 16)) k).toInt

/-- One element of the interpolated vector: `f` is the Q2 weight of the current value (R169). -/
def blend (f prev cur : Int) : Int := prev + asr (f * (cur - prev)) 2

/-- `BwExpand` with a running chirp in Q16; `cm1` is the first chirp less 65536 (R173). -/
def bwExpandFrom (cm1 chirp : Int) : List Int → List Int
  | [] => []
  | a :: as => rshiftRound (chirp * a) 16 :: bwExpandFrom cm1 (chirp + rshiftRound (chirp * cm1) 16) as

/-- `BwExpand(a, order, chirp)` (R173). -/
def bwExpand (a : List Int) (chirp : Int) : List Int := bwExpandFrom (chirp - 65536) chirp a

/-- Bandwidth expansion of one half's coefficients, only after a loss (R173). -/
def expandOnLoss (lossCnt : BitVec 32) (a : List Int) : List Int :=
  if lossCnt ≠ 0 then bwExpand a bweAfterLossQ16 else a

/-- The interpolation factor RECON uses: 4 on the first frame after a reset (R168). -/
def interpFactor (ch : Channel) (bank : IndexBank) : BitVec 3 :=
  if ch.firstFrame then 4 else bank.nlsfInterpCoef

/-- The elements of `PREV_NLSF` below `order`, unsigned (R23). -/
def prevNlsfValues (ch : Channel) (order : Nat) : List Int :=
  (List.range order).map fun k => ((ch.prevNlsf.toList.getD k 0).toNat : Int)

/-- The vector that the first half is converted from when the factor `f` is below 4 (R169). -/
def blendedNlsf (ch : Channel) (f : BitVec 3) (nlsf : List Int) : List Int :=
  (prevNlsfValues ch nlsf.length).zipWith (blend f.toNat) nlsf

/-- The running gain indices of the frame's subframes (R151). -/
def frameGainIndices (ch : Channel) (bank : IndexBank) (mode : BitVec 2) : List Int :=
  gainIndices (conditionalMode mode) ch.lastGainIndex.toInt
    ((bank.gainsIndex.toList.take ch.nbSubfr.toNat).map BitVec.toInt)

/-- The reconstructed, stabilized NLSF vector of the frame (R156). -/
def frameNlsf (rom : Rom) (ch : Channel) (bank : IndexBank) : List Int :=
  nlsfDecode rom (codebookOf ch.fsKhz.toNat) bank.nlsfIndex

/-- The second half's coefficients before bandwidth expansion (R170). -/
def secondHalf (rom : Rom) (ch : Channel) (bank : IndexBank) : List Int :=
  nlsf2a rom (codebookOrder (codebookOf ch.fsKhz.toNat)) (frameNlsf rom ch bank)

/-- The first half's coefficients before bandwidth expansion: of the blend, or a copy of the second half's (R169). -/
def firstHalf (rom : Rom) (ch : Channel) (bank : IndexBank) : List Int :=
  if (interpFactor ch bank).toNat < 4 then
    nlsf2a rom (codebookOrder (codebookOf ch.fsKhz.toNat))
      (blendedNlsf ch (interpFactor ch bank) (frameNlsf rom ch bank))
  else secondHalf rom ch bank

/-- A voiced frame's pitch lags (R174); none otherwise (R176). -/
def framePitchLags (ch : Channel) (bank : IndexBank) : List Int :=
  if bank.signalType = 2 then
    pitchMap bank.lagIndex.toInt bank.contourIndex.toNat ch.fsKhz.toNat ch.nbSubfr.toNat
  else []

/-- The Q14 taps of one subframe (R175). -/
def ltpTaps (rom : Rom) (per ltp : Nat) : List Int :=
  (List.range ltpOrder).map fun t => shl (rom.ltpVqQ7 per ltp t).toInt 7

/-- A voiced frame's LTP taps, subframe by subframe (R175); none otherwise (R176). -/
def frameLtpTaps (rom : Rom) (ch : Channel) (bank : IndexBank) : List Int :=
  if bank.signalType = 2 then
    (bank.ltpIndex.toList.take ch.nbSubfr.toNat).flatMap fun i => ltpTaps rom bank.perIndex.toNat i.toNat
  else []

/-- A voiced frame's LTP scale (R175); 0 otherwise (R176). -/
def frameLtpScale (bank : IndexBank) : Int :=
  if bank.signalType = 2 then tableRead ltpScaleTable 0 bank.ltpScaleIndex.toNat else 0

/-- The body of RECON up to its commit (R150), a function of the index bank, the coding mode and the channel state
(R177); every element past the subframe count or the order is 0 (D28). -/
def reconCompute (rom : Rom) (ch : Channel) (bank : IndexBank) (mode : BitVec 2) : ReconResult where
  bank :=
    { gainQ16 := pack 32 4 ((frameGainIndices ch bank mode).map gainLut)
      pitchLag := pack 32 4 (framePitchLags ch bank)
      ltpScaleQ14 := BitVec.ofInt 32 (frameLtpScale bank)
      predCoef0 := pack 16 16 (expandOnLoss ch.lossCnt (firstHalf rom ch bank))
      predCoef1 := pack 16 16 (expandOnLoss ch.lossCnt (secondHalf rom ch bank))
      ltpCoefQ14 := pack 16 20 (frameLtpTaps rom ch bank) }
  lastGainIndex := BitVec.ofInt 8 ((frameGainIndices ch bank mode).getLastD ch.lastGainIndex.toInt)
  prevNlsf := pack 16 16 (frameNlsf rom ch bank)
  nlsfInterpCoef := interpFactor ch bank
  perIndex := if bank.signalType = 2 then bank.perIndex else 0

/-- RECON's computation and commit on the committed bank of a state (R150, R177): the mode is `IDX_STATUS.MODE`
(D27). -/
def reconstruct (rom : Rom) (s : State) : State :=
  commitRecon (reconCompute rom s.channel s.idx s.idxStatus.mode) s

/-- The effect of a RECON that passes its checks (R150). -/
def runRecon (rom : Rom) (s : State) : State := setDone (reconstruct rom s)

/-- `RECON` (R150). -/
def execRecon (s : State) : Host.Outcome State Fault Refusal :=
  .next (issue 3 checkRecon (runRecon Config.rom) s)

end Sys2Proof.Machine
end

