-- ==== Sys2Proof/Machine/Dispatch.lean ====
section
/-! DEFINITION. One arm per command: its meaning in the machine. -/

namespace Sys2Proof.Machine

open Sys2Proof

def exec (i : Instr) (s : State) : Host.Outcome State Fault Refusal :=
  match i with
  | .nop => Sys2Proof.Machine.execNop s
  | .reset => Sys2Proof.Machine.execReset s
  | .decidx mode vad => Sys2Proof.Machine.execDecidx mode vad s
  | .recon => Sys2Proof.Machine.execRecon s
  | .decfrm mode vad => Sys2Proof.Machine.execDecfrm mode vad s
  | .pitchmap => Sys2Proof.Machine.execPitchmap s

end Sys2Proof.Machine
end

