-- ==== Sys2Proof/Machine/Registers.lean ====
section
/-! DEFINITION. The register map (R96) and host reads of it (R64, R66). -/

namespace Sys2Proof.Machine

/-- The registers of one block (R96). -/
inductive Reg where
  | id
  | cmd
  | status
  | ctrl
  | cfg
  | lossCnt
  | errInfo
  | firstFrame
  | lastGainIndex
  | prevLagIndex
  | prevSignalType
  | pmArg
  | prevNlsf (k : Fin 16)
  | pmLag (k : Fin 4)
  | idxStatus
  | signalType
  | quantOffsetType
  | nlsfInterpCoef
  | lagIndex
  | contourIndex
  | perIndex
  | ltpScaleIndex
  | seed
  | gainsIndex (k : Fin 4)
  | ltpIndex (k : Fin 4)
  | nlsfIndex (k : Fin 17)
  | dcStatus
  | ltpScaleQ14
  | gainQ16 (k : Fin 4)
  | pitchLag (k : Fin 4)
  | predCoef0 (k : Fin 16)
  | predCoef1 (k : Fin 16)
  | ltpCoefQ14 (k : Fin 20)
deriving DecidableEq, Repr

/-- The byte offset of a register from `REG_BASE` (R96). -/
def Reg.offset : Reg → Nat
  | .id => 0x000
  | .cmd => 0x004
  | .status => 0x008
  | .ctrl => 0x00C
  | .cfg => 0x010
  | .lossCnt => 0x014
  | .errInfo => 0x018
  | .firstFrame => 0x020
  | .lastGainIndex => 0x024
  | .prevLagIndex => 0x028
  | .prevSignalType => 0x02C
  | .pmArg => 0x030
  | .prevNlsf k => 0x040 + 4 * k.val
  | .pmLag k => 0x080 + 4 * k.val
  | .idxStatus => 0x100
  | .signalType => 0x104
  | .quantOffsetType => 0x108
  | .nlsfInterpCoef => 0x10C
  | .lagIndex => 0x110
  | .contourIndex => 0x114
  | .perIndex => 0x118
  | .ltpScaleIndex => 0x11C
  | .seed => 0x120
  | .gainsIndex k => 0x130 + 4 * k.val
  | .ltpIndex k => 0x140 + 4 * k.val
  | .nlsfIndex k => 0x180 + 4 * k.val
  | .dcStatus => 0x200
  | .ltpScaleQ14 => 0x204
  | .gainQ16 k => 0x210 + 4 * k.val
  | .pitchLag k => 0x220 + 4 * k.val
  | .predCoef0 k => 0x240 + 4 * k.val
  | .predCoef1 k => 0x280 + 4 * k.val
  | .ltpCoefQ14 k => 0x2C0 + 4 * k.val

/-- The register of an array of `n` words at `base` that holds word number `w` of the window. -/
def arrayAt (base n : Nat) (f : Fin n → Reg) (w : Nat) : Option Reg :=
  if base ≤ w then (if h : w - base < n then some (f ⟨w - base, h⟩) else none) else none

/-- The register at word number `w` of the window among the single registers of R96. -/
def singleRegAt : Nat → Option Reg
  | 0x00 => some .id
  | 0x01 => some .cmd
  | 0x02 => some .status
  | 0x03 => some .ctrl
  | 0x04 => some .cfg
  | 0x05 => some .lossCnt
  | 0x06 => some .errInfo
  | 0x08 => some .firstFrame
  | 0x09 => some .lastGainIndex
  | 0x0A => some .prevLagIndex
  | 0x0B => some .prevSignalType
  | 0x0C => some .pmArg
  | 0x40 => some .idxStatus
  | 0x41 => some .signalType
  | 0x42 => some .quantOffsetType
  | 0x43 => some .nlsfInterpCoef
  | 0x44 => some .lagIndex
  | 0x45 => some .contourIndex
  | 0x46 => some .perIndex
  | 0x47 => some .ltpScaleIndex
  | 0x48 => some .seed
  | 0x80 => some .dcStatus
  | 0x81 => some .ltpScaleQ14
  | _ => none

/-- The register at word number `w` among the arrays of R96. -/
def arrayRegAt (w : Nat) : Option Reg :=
  (arrayAt 0x10 16 .prevNlsf w).or <| (arrayAt 0x20 4 .pmLag w).or <|
  (arrayAt 0x4C 4 .gainsIndex w).or <| (arrayAt 0x50 4 .ltpIndex w).or <|
  (arrayAt 0x60 17 .nlsfIndex w).or <| (arrayAt 0x84 4 .gainQ16 w).or <|
  (arrayAt 0x88 4 .pitchLag w).or <| (arrayAt 0x90 16 .predCoef0 w).or <|
  (arrayAt 0xA0 16 .predCoef1 w).or (arrayAt 0xB0 20 .ltpCoefQ14 w)

/-- The register that holds the word at a byte offset; `none` where there is none (R64). The offset's two low bits
are 0 in every access that gets here (R63). -/
def regAt (off : Offset) : Option Reg :=
  (singleRegAt (off.toNat / 4)).or (arrayRegAt (off.toNat / 4))

/-- `CFG` as the host reads it, its read-only fields derived (R30, R44). -/
def Channel.cfgWord (c : Channel) : Word :=
  0#6 ++ BitVec.ofBool (cbWb c.fsKhz.toNat c.nbSubfr.toNat) ++ BitVec.ofBool c.cfgOk ++ 0#3 ++
    BitVec.ofNat 5 (lpcOrder c.fsKhz.toNat) ++ 0#5 ++ c.nbSubfr ++ 0#3 ++ c.fsKhz

/-- The constant of the `ID` register (R40). -/
def idWord : Word := 0x4A534531

/-- An unsigned field, zero-extended (R11). -/
def zextWord {n : Nat} (v : BitVec n) : Word := v.setWidth 32

/-- A signed field, sign-extended (R11). -/
def sextWord {n : Nat} (v : BitVec n) : Word := v.signExtend 32

/-- A flag as a word. -/
def flagWord (b : Bool) : Word := zextWord (BitVec.ofBool b)

/-- The word a read of a register returns (R96). While a command runs these are the pre-command values: what it
has staged is not read (R49). -/
def Reg.read (s : State) : Reg → Word
  | .id => idWord
  | .cmd => 0
  | .status => s.status.toWord s.busy
  | .ctrl => flagWord s.irqEn
  | .cfg => s.channel.cfgWord
  | .lossCnt => s.channel.lossCnt
  | .errInfo => s.errInfo.toWord
  | .firstFrame => flagWord s.channel.firstFrame
  | .lastGainIndex => sextWord s.channel.lastGainIndex
  | .prevLagIndex => sextWord s.channel.prevLagIndex
  | .prevSignalType => zextWord s.channel.prevSignalType
  | .pmArg => s.pmArg
  | .prevNlsf k => zextWord s.channel.prevNlsf[k]
  | .pmLag k => s.pmLag[k]
  | .idxStatus => s.idxStatus.toWord
  | .signalType => zextWord s.idx.signalType
  | .quantOffsetType => zextWord s.idx.quantOffsetType
  | .nlsfInterpCoef => zextWord s.idx.nlsfInterpCoef
  | .lagIndex => sextWord s.idx.lagIndex
  | .contourIndex => zextWord s.idx.contourIndex
  | .perIndex => zextWord s.idx.perIndex
  | .ltpScaleIndex => zextWord s.idx.ltpScaleIndex
  | .seed => zextWord s.idx.seed
  | .gainsIndex k => sextWord s.idx.gainsIndex[k]
  | .ltpIndex k => zextWord s.idx.ltpIndex[k]
  | .nlsfIndex k => sextWord s.idx.nlsfIndex[k]
  | .dcStatus => flagWord s.dcValid
  | .ltpScaleQ14 => s.dc.ltpScaleQ14
  | .gainQ16 k => s.dc.gainQ16[k]
  | .pitchLag k => s.dc.pitchLag[k]
  | .predCoef0 k => sextWord s.dc.predCoef0[k]
  | .predCoef1 k => sextWord s.dc.predCoef1[k]
  | .ltpCoefQ14 k => sextWord s.dc.ltpCoefQ14[k]

/-- The word at an aligned offset: 0 where there is no register (R64). -/
def readWord (s : State) (off : Offset) : Word :=
  match regAt off with
  | some r => r.read s
  | none => 0

end Sys2Proof.Machine
end

