-- ==== Sys2Proof/Machine/Sequencer.lean ====
section
/-! DEFINITION. The symbol request port and the running command (R48, R92): the Symbol Decoder's answer, and the
block's acceptance of it, which asks for the next symbol, aborts or commits. -/

namespace Sys2Proof.Machine

/-- The Symbol Decoder answers the outstanding request (R92). Without one, or with an answer already waiting, it has
nothing to answer. -/
def answerRequest (v : Byte) (s : State) : Host.Outcome State Fault Refusal :=
  match s.seq with
  | .idle => .fault .unrequestedResponse
  | .running r =>
    match r.response with
    | some _ => .fault .unrequestedResponse
    | none => .next { s with seq := .running { r with response := some v } }

/-- The successful end of a running command: DECIDX's commit (R130), and for DECFRM then RECON's over it (R222), in
one step. -/
def finishRun (rom : Rom) (r : Run) (st : Staged) (s : State) : State :=
  let committed := commitIndices r.mode r.vad st (goIdle s)
  match r.op with
  | .decidx => setDone committed
  | .decfrm => setDone (reconstruct rom committed)

/-- What an accepted, in-range response leads to. -/
def proceed (rom : Rom) (r : Run) (s : State) : Progress → State
  | .ask step st =>
    let tid := requestTid rom (frameContext r.mode r.vad s.channel) st step
    { s with seq := .running { r with step := step, pending := tid, response := none, staged := st } }
  | .finished st => finishRun rom r st s

/-- `SymbolRead`'s acceptance of the value `v` (R14): out of range it aborts the command (R134), else the procedure
of R111 goes on. -/
def acceptResponse (rom : Rom) (r : Run) (v : Byte) (s : State) : State :=
  if alphabet r.pending ≤ (v.toNat : Int) then endCommandWithError .symbol r.op.code r.pending v s
  else proceed rom r s (absorb (frameContext r.mode r.vad s.channel) v r.staged r.step)

/-- One step of the block on its own: it accepts a waiting response; while idle, or while the response is still to
come, it does nothing (R259, R287). -/
def blockTurn (rom : Rom) (s : State) : State :=
  match s.seq with
  | .idle => s
  | .running r =>
    match r.response with
    | none => s
    | some v => acceptResponse rom r v s

end Sys2Proof.Machine
end

