-- ==== Sys2Proof/Machine/BusPort.lean ====
section
/-! DEFINITION. The host's side of the block: accesses to the register window and the reception of a command word
(R60 to R66, R85). -/

namespace Sys2Proof.Machine

/-- A word that is no command: refused while BUSY (R245), else accepted and ended with `ErrCmd` (R85, R241). -/
def illegalCommand (w : Word) (s : State) : State :=
  issue (opField w) (fun _ => some .cmd) id s

/-- A host write of `w` to `CMD` (R85): a legal word runs its command. -/
def receiveCommand (w : Word) (s : State) : Host.Outcome State Fault Refusal :=
  match decode w with
  | .ok i => exec i s
  | .error _ => .next (illegalCommand w s)

/-- An aligned 32-bit write to a register (R64, R65); a write to a read-only register is ignored. -/
def writeReg (r : Reg) (w : Word) (s : State) : Host.Outcome State Fault Refusal :=
  match r with
  | .cmd => receiveCommand w s
  | .status => .next (clearStatus w s)
  | .ctrl => .next (writeCtrl w s)
  | .cfg => .next (writeCfg w s)
  | .lossCnt => .next (writeLossCnt w s)
  | .pmArg => .next (writePmArg w s)
  | _ => .next s

/-- An aligned 32-bit write at an offset; ignored where there is no register (R64). -/
def writeWord (off : Offset) (w : Word) (s : State) : Host.Outcome State Fault Refusal :=
  match regAt off with
  | some r => writeReg r w s
  | none => .next s

/-- The accesses that are served: 32 bits wide, at a multiple of 4 (R62, R63). -/
def accessServed (width : AccessWidth) (off : Offset) : Bool :=
  width == .word && off.toNat % 4 == 0

/-- A refused access (R247): `ErrBus` is recorded, and a read returns 0. -/
def refuseAccess (data : Option Word) (s : State) : State :=
  recordError .bus 0 0 0 (setReply { data := data, error := true } s)

/-- One host access (R62 to R66). -/
def hostAccess (a : BusAccess) (s : State) : Host.Outcome State Fault Refusal :=
  match a with
  | .read width off =>
    if accessServed width off then .next (setReply { data := some (readWord s off), error := false } s)
    else .next (refuseAccess (some 0) s)
  | .write width off w =>
    if accessServed width off then writeWord off w (setReply { data := none, error := false } s)
    else .next (refuseAccess none s)

/-- The offset of `CMD` (R96). -/
def cmdOffset : Offset := 0x004

/-- The host's write of a command word (R90). -/
def commandWrite (w : Word) : Event := .host (.write .word cmdOffset w)

/-- One step of one agent (R286). -/
def agentStep (e : Event) (s : State) : Host.Outcome State Fault Refusal :=
  match e with
  | .host a => hostAccess a s
  | .respond v => answerRequest v s
  | .block => .next (blockTurn Config.rom s)
  | .powerOn => .next (powerOnReset s)

/-- The next step of the agenda; with none the machine waits (R259, R280). -/
def runAgenda (s : State) : Host.Outcome State Fault Refusal :=
  match s.agenda with
  | [] => .next s
  | e :: es => agentStep e (setAgenda es s)

/-- The state in which the host's next access is the write of a command whose bits are `w`. -/
def placeCommand (nbits w : Nat) (s : State) : State :=
  setAgenda (commandWrite (BitVec.ofNat 32 (tableBits nbits w)) :: s.agenda) s

end Sys2Proof.Machine
end

