-- ==== Sys2Proof/Machine/Step.lean ====
section
/-! DEFINITION. The one step of the machine, and where it takes its next command from. -/

namespace Sys2Proof.Machine

/-- One step: the agent that moves next on the agenda moves (R70, R286; log 1). -/
def step (s : State) : Host.Outcome State Fault Refusal := runAgenda s

/-- The block fetches nothing (R22): a command comes to run because the host writes it to `CMD`. This puts that
write, of the instruction whose bits are `w`, at the head of the agenda (log 1). -/
def State.withFetchWord (s : State) (nbits w : Nat) : State := placeCommand nbits w s

end Sys2Proof.Machine
end

