-- ==== Sys2Proof/Machine/Procedure.lean ====
section
/-! DEFINITION. The whole procedure of R111 in the spec's own form: one program that draws its symbols one after
another. The sequencer (IndexDecoder, Sequencer) runs it a symbol at a time; a statement says that the two agree. -/

namespace Sys2Proof.Machine

/-- Why a procedure that draws symbols has no result. -/
inductive DrawStop where
  /-- It waits for the answer to a request for table `tid`: no answer is left. -/
  | waiting (tid : Tid)
  /-- The answer `v` to a request for table `tid` is out of range (R134); `unread` are the answers after it. -/
  | outOfRange (tid : Tid) (v : Byte) (unread : List Byte)
deriving DecidableEq, Repr

/-- A program that draws symbols from the Symbol Decoder's answers, oldest first. -/
abbrev Draw (α : Type) := StateT (List Byte) (Except DrawStop) α

/-- `SymbolRead(tid)` (R14). -/
def symbolRead (tid : Tid) : Draw Byte := fun answers =>
  match answers with
  | [] => .error (.waiting tid)
  | v :: rest => if alphabet tid ≤ (v.toNat : Int) then .error (.outOfRange tid v rest) else .ok (v, rest)

/-- Gain index 0 (R111 step 2, R113). -/
def drawGain0 (c : FrameContext) (st : Staged) : Draw Staged :=
  if conditionalMode c.mode then do
    let v ← symbolRead 6
    pure (stageGain 0 v.toNat st)
  else do
    let m ← symbolRead (tidGainMsb st.bank.signalType)
    let l ← symbolRead 5
    pure (stageGain 0 (shl m.toNat 3 + l.toNat) st)

/-- Gain index `k`, for `k` from 1 (R111 step 2, R114). -/
def drawGain (st : Staged) (k : Nat) : Draw Staged := do
  let v ← symbolRead 6
  pure (stageGain k v.toNat st)

/-- The residual of coefficient `i`, with its extension if it has one (R111 step 3, R118 to R120). -/
def drawResidual (rom : Rom) (cb : Codebook) (st : Staged) (i : Nat) : Draw Staged := do
  let x ← symbolRead (tidRes cb (nlsfSel rom cb st.bank.nlsfIndex[0].toNat i))
  if x = 0 then
    let e ← symbolRead 27
    pure (stageNlsf (i + 1) (x.toNat - e.toNat - nlsfQuantMaxAmplitude) st)
  else if x = 8 then
    let e ← symbolRead 27
    pure (stageNlsf (i + 1) (x.toNat + e.toNat - nlsfQuantMaxAmplitude) st)
  else
    pure (stageNlsf (i + 1) (x.toNat - nlsfQuantMaxAmplitude) st)

/-- The interpolation factor (R111 step 4). -/
def drawInterp (c : FrameContext) (st : Staged) : Draw Staged :=
  if c.nsf = 4 then do
    let v ← symbolRead 28
    pure { st with bank := { st.bank with nlsfInterpCoef := v.setWidth 3 } }
  else pure { st with bank := { st.bank with nlsfInterpCoef := 4 } }

/-- The absolute pitch lag (R111 step 5, R126). -/
def drawAbsoluteLag (c : FrameContext) (st : Staged) : Draw Staged := do
  let h ← symbolRead 30
  let l ← symbolRead (tidLowbits c.fs)
  pure (stageLag (h.toNat * asr c.fs 1 + l.toNat) st)

/-- The pitch lag, as a delta where that is tried and the delta is not 0 (R111 step 5, R123 to R127). -/
def drawLag (c : FrameContext) (st : Staged) : Draw Staged :=
  if conditionalMode c.mode ∧ c.prevSignalType = 2 then do
    let d ← symbolRead 29
    if d = 0 then drawAbsoluteLag c st
    else pure (stageLag (c.prevLagIndex.toInt + d.toNat - 9) st)
  else drawAbsoluteLag c st

/-- The LTP gain index of subframe `k` (R129). -/
def drawLtp (st : Staged) (k : Nat) : Draw Staged := do
  let v ← symbolRead (tidLtpGain st.bank.perIndex)
  pure (stageLtp k v st)

/-- The LTP scale index (R131). -/
def drawLtpScale (c : FrameContext) (st : Staged) : Draw Staged :=
  if decodesLtpScale c.mode then do
    let v ← symbolRead 41
    pure { st with bank := { st.bank with ltpScaleIndex := v.setWidth 2 } }
  else pure { st with bank := { st.bank with ltpScaleIndex := 0 } }

/-- The pitch and LTP fields of a voiced frame (R111 step 5). -/
def drawVoiced (c : FrameContext) (st : Staged) : Draw Staged := do
  let st ← drawLag c st
  let contour ← symbolRead (tidContour c.fs c.nsf)
  let st := { st with bank := { st.bank with contourIndex := contour.setWidth 6 } }
  let per ← symbolRead 37
  let st := { st with bank := { st.bank with perIndex := per.setWidth 2 } }
  let st ← (List.range c.nsf).foldlM drawLtp st
  drawLtpScale c st

/-- `IndexProcedure(MODE, VAD)` (R111). -/
def indexProcedure (rom : Rom) (mode : BitVec 2) (vad : Bool) (ch : Channel) : Draw Staged := do
  let c := frameContext mode vad ch
  let ix ← symbolRead (tidType vad)
  let st := stageSignalType (ix + if vad then 2 else 0) (initialStaged ch)
  let st ← drawGain0 c st
  let st ← (List.range' 1 (c.nsf - 1)).foldlM drawGain st
  let v ← symbolRead (tidCb1 (codebookOf c.fs) st.bank.signalType)
  let st := stageNlsf 0 v.toNat st
  let st ← (List.range (lpcOrder c.fs)).foldlM (drawResidual rom (codebookOf c.fs)) st
  let st ← drawInterp c st
  let st ← if st.bank.signalType = 2 then drawVoiced c st
    else pure { st with prevLagIndex := c.prevLagIndex }
  let st := { st with prevSignalType := st.bank.signalType }
  let seed ← symbolRead 31
  pure { st with bank := { st.bank with seed := seed.setWidth 2 } }

end Sys2Proof.Machine
end

