-- ==== Sys2Proof/Safety.lean ====
section
/-! DEFINITION. The terms that claims about runs use: the invariants of the machine, runs of several steps, and the
events that answer a list of symbol requests. -/

namespace Sys2Proof.Machine

/-- `k` steps, stopping at the first fault or refusal. -/
def runSteps : Nat → State → Host.Outcome State Fault Refusal
  | 0, s => .next s
  | k + 1, s =>
    match step s with
    | .next s' => runSteps k s'
    | .fault r => .fault r
    | .refused r => .refused r

/-- The Symbol Decoder answers each of `vs` in turn and the block accepts each answer (R92, R286). -/
def symbolAgenda (vs : List Byte) : List Event := vs.flatMap fun v => [.respond v, .block]

/-- The bus's answer to a served write. -/
def writeReply : BusReply := { data := none, error := false }

/-- The state after a host write has been taken off the agenda and answered. -/
def afterWrite (es : List Event) (s : State) : State := { s with agenda := es, busReply := some writeReply }

/-- A served 32-bit write at an offset. -/
def wordWrite (off : Offset) (w : Word) : Event := .host (.write .word off w)

/-- A served 32-bit read at an offset. -/
def wordRead (off : Offset) : Event := .host (.read .word off)

/-- The registers a host write can change, or whose write starts a command (R65, D43). -/
def Reg.writable : Reg → Bool
  | .cmd | .status | .ctrl | .cfg | .lossCnt | .pmArg => true
  | _ => false

/-- `ERR_INFO` describes an error exactly when an error bit is set; its code is one of 1 to 7; `TID` and `SYMVAL` are
0 but for a symbol error, `OP` is 0 for a bus error, and the whole register is 0 when no error is recorded (R46, R240,
R248). -/
abbrev ErrorRecordCoherent (s : State) : Prop :=
  (s.status.anyError = true ↔ s.errInfo.code ≠ 0) ∧ s.errInfo.code ≤ 7 ∧
    (s.errInfo.code ≠ 4 → s.errInfo.tid = 0 ∧ s.errInfo.symval = 0) ∧
    (s.errInfo.code = 7 → s.errInfo.op = 0) ∧ (s.errInfo.code = 0 → s.errInfo = ErrInfo.none)

/-- What a running command relies on: a legal configuration and mode, the tid of R111's next request outstanding, and
that tid one of the 42 of R93 (R48, R94, R242, R245). -/
abbrev RunCoherent (rom : Rom) (s : State) (r : Run) : Prop :=
  s.channel.cfgOk = true ∧ r.mode ≠ 3 ∧
    r.pending = requestTid rom (frameContext r.mode r.vad s.channel) r.staged r.step ∧ r.pending < 42

/-- The sequencer is coherent: `RunCoherent` while it runs. -/
abbrev SequencerCoherent (rom : Rom) (s : State) : Prop :=
  match s.seq with
  | .idle => True
  | .running r => RunCoherent rom s r

/-- An integer in a closed range. -/
abbrev InRange (x lo hi : Int) : Prop := lo ≤ x ∧ x ≤ hi

/-- The count of vectors of the LTP codebook of a periodicity (R8). -/
abbrev ltpVectors (per : BitVec 2) : Nat := 8 * 2 ^ per.toNat

/-- The index fields lie in the ranges of R32, and a frame that is not voiced has periodicity 0 (R135). -/
abbrev IndexBankInRange (b : IndexBank) : Prop :=
  b.signalType ≤ 2 ∧ InRange b.gainsIndex[0].toInt 0 63 ∧
    (∀ k : Fin 4, k ≠ 0 → InRange b.gainsIndex[k].toInt 0 40) ∧
    InRange b.nlsfIndex[0].toInt 0 31 ∧
    (∀ k : Fin 17, k ≠ 0 → InRange b.nlsfIndex[k].toInt (-10) 10) ∧
    b.nlsfInterpCoef ≤ 4 ∧ b.contourIndex ≤ 33 ∧ b.perIndex ≤ 2 ∧ b.ltpScaleIndex ≤ 2 ∧
    (∀ k : Fin 4, b.ltpIndex[k].toNat < ltpVectors b.perIndex) ∧
    (b.signalType ≠ 2 → b.perIndex = 0)

/-- The partial symbol a step carries is in the range of its table. -/
abbrev StepInRange : SeqStep → Prop
  | .gainLsb msb => msb < 8
  | .extension _ x => x = 0 ∨ x = 8
  | .gainDelta k => 1 ≤ k
  | _ => True

/-- The steps of R111 up to the periodicity index. -/
def SeqStep.beforeLtp : SeqStep → Bool
  | .ltpGain _ | .ltpScale | .seed => false
  | _ => true

/-- The steps of R111 that only a voiced frame takes (R122). -/
def SeqStep.voicedOnly : SeqStep → Bool
  | .pitchDelta | .pitchHigh | .pitchLow _ | .contour | .periodicity | .ltpGain _ | .ltpScale => true
  | _ => false

/-- The staged copies of a running command are in range, and its contour index is a column of the table that its
configuration selects (R128, R136). -/
abbrev RunInRange (s : State) (r : Run) : Prop :=
  IndexBankInRange r.staged.bank ∧ r.staged.prevSignalType ≤ 2 ∧ StepInRange r.step ∧
    (r.step.beforeLtp = true → r.staged.bank.perIndex = 0) ∧
    (r.step.voicedOnly = true → r.staged.bank.signalType = 2) ∧
    r.staged.bank.contourIndex.toNat < contourSize s.channel.fsKhz.toNat s.channel.nbSubfr.toNat

/-- Everything DECIDX writes is in range: the bank, the staged copies, `PREV_SIGNAL_TYPE`, `IDX_STATUS.MODE`, and a
valid bank goes with the legal configuration it was decoded under (R26, R31, R32, R128, R136). -/
abbrev IndicesInRange (s : State) : Prop :=
  IndexBankInRange s.idx ∧ s.channel.prevSignalType ≤ 2 ∧ s.idxStatus.mode ≤ 2 ∧
    (s.idxStatus.valid = true → s.channel.cfgOk = true ∧
      s.idx.contourIndex.toNat < contourSize s.channel.fsKhz.toNat s.channel.nbSubfr.toNat) ∧
    match s.seq with
    | .idle => True
    | .running r => RunInRange s r

/-- What RECON writes is in the ranges of R37, and the channel values it carries in those of R23 and R24. -/
abbrev ControlInRange (s : State) : Prop :=
  (∀ k : Fin 4, s.dc.gainQ16[k] = 0 ∨ InRange s.dc.gainQ16[k].toInt 81920 1686110208) ∧
    (∀ k : Fin 4, s.dc.pitchLag[k] = 0 ∨ InRange s.dc.pitchLag[k].toInt 16 288) ∧
    s.dc.ltpScaleQ14.toInt ∈ [0, 15565, 12288, 8192] ∧
    (∀ k : Fin 20, InRange s.dc.ltpCoefQ14[k].toInt (-16384) 16256 ∧ s.dc.ltpCoefQ14[k].toInt % 128 = 0) ∧
    (∀ k : Fin 16, s.channel.prevNlsf[k] ≤ 32767) ∧ InRange s.channel.lastGainIndex.toInt 0 63

/-- `prev` of `GainDequant` after `k` subframes, as the pseudocode of R151 to R153 runs. -/
def runningGain (conditional : Bool) (last : Int) (ind : Nat → Int) : Nat → Int
  | 0 => last
  | k + 1 =>
    let prev := runningGain conditional last ind k
    let t := ind k - 4
    let raw := if k = 0 ∧ conditional = false then max (ind 0) (prev - 16)
      else if t > 8 + prev then prev + 2 * t - (8 + prev) else prev + t
    min (max raw 0) 63

/-- `r` of `ResidualDequant` once the `n` highest of its `order` coefficients are done, as the pseudocode of R162
runs. -/
def residualAfter (ind pred : Nat → Int) (qstep : Int) (order : Nat) : Nat → Int
  | 0 => 0
  | n + 1 =>
    let i := order - 1 - n
    let q := if 0 < ind i then 1024 * ind i - 102 else if ind i < 0 then 1024 * ind i + 102 else 0
    wrap16 (asr (residualAfter ind pred qstep order n * pred i) 8 + smulwb q qstep)

/-- Coefficient `k` of `NLSF2A` on the vector `x` (R170). -/
def nlsf2aAt (order : Nat) (x : Nat → Int) (k : Nat) : BitVec 16 :=
  Config.nlsf2a order ((List.range order).map fun i => BitVec.ofInt 16 (x i)) k

/-- `chirp` of `BwExpand` when coefficient `k` is scaled (R173). -/
def chirpAt : Nat → Int
  | 0 => 63570
  | k + 1 => chirpAt k + (chirpAt k * (63570 - 65536) + 32768) / 65536

/-- Coefficient `k` after bandwidth expansion, which only a loss brings about (R173). -/
def expandedAt (lossCnt : Word) (k : Nat) (a : BitVec 16) : BitVec 16 :=
  if lossCnt = 0 then a else BitVec.ofInt 16 ((chirpAt k * a.toInt + 32768) / 65536)

/-- The residual dequantizer of R162 without the 16-bit wrap of R163. -/
def residualExact (qstep : Int) : List (Int × Int) → List Int
  | [] => []
  | (ind, pred) :: xs =>
    let above := residualExact qstep xs
    let q0 := shl ind 10
    let q := if q0 > 0 then q0 - nlsfQuantLevelAdjQ10
      else if q0 < 0 then q0 + nlsfQuantLevelAdjQ10 else q0
    (asr (above.headD 0 * pred) 8 + smulwb q qstep) :: above

/-- The number of coefficients of a committed bank whose residual symbol was 0 or 8: those are the stored values of
magnitude 4 or more (R119, R120). -/
def escapeCount (b : IndexBank) (order : Nat) : Nat :=
  ((b.nlsfIndex.toList.drop 1).take order).countP fun x => decide (4 ≤ x.toInt.natAbs)

/-- The number of symbol requests of R138, without its part P. -/
def baseRequests (conditional : Bool) (nsf order escapes : Nat) : Nat :=
  1 + (if conditional then 1 else 2) + (nsf - 1) + 1 + order + escapes + (if nsf = 4 then 1 else 0) + 1

/-- The part P of R138 for a voiced frame. -/
def voicedRequests (tried absolute ltps : Bool) (nsf : Nat) : Nat :=
  (if tried then 1 else 0) + (if absolute then 2 else 0) + 1 + 1 + nsf + (if ltps then 1 else 0)

end Sys2Proof.Machine
end

