-- ==== Sys2Proof/Certificates/Slice0/Obligations.lean ====
section
/-! DEFINITION. The statements about the model, for the provers. Those about `step` name the next event by `agenda` and
the bus's answer by `busReply`, the model's own fields (log 1, log 2). -/

open Sys2Proof Sys2Proof.Machine

/-! ### Encoding -/

/-- Sample words of R90 and of V60 to V66 decode as the spec's table says. -/
def Obligations.TableWordsDecode : Prop :=
  decode 0x00000000 = .ok .nop ∧ decode 0x00000001 = .ok .reset ∧
  decode 0x00000002 = .ok (.decidx 0 false) ∧ decode 0x00000012 = .ok (.decidx 1 false) ∧
  decode 0x00000022 = .ok (.decidx 2 false) ∧ decode 0x00000042 = .ok (.decidx 0 true) ∧
  decode 0x00000052 = .ok (.decidx 1 true) ∧ decode 0x00000062 = .ok (.decidx 2 true) ∧
  decode 0x00000003 = .ok .recon ∧ decode 0x00000005 = .ok .pitchmap ∧
  decode 0x00000004 = .ok (.decfrm 0 false) ∧ decode 0x00000014 = .ok (.decfrm 1 false) ∧
  decode 0x00000024 = .ok (.decfrm 2 false) ∧ decode 0x00000044 = .ok (.decfrm 0 true) ∧
  decode 0x00000054 = .ok (.decfrm 1 true) ∧ decode 0x00000064 = .ok (.decfrm 2 true) ∧
  decode 0x00000032 = .error .reservedMode ∧ decode 0x00000083 = .error .reservedBits ∧
  decode 0x00000043 = .error .unusedOperand ∧ decode 0x0000000F = .error .reservedOpcode

/-- R84: the words that decode are exactly the legal ones, the condition written out on the bits of the word. -/
def Obligations.DecodeAcceptsExactlyLegalWords : Prop :=
  ∀ w : Word, (∃ i, decode w = .ok i) ↔
    (w.extractLsb' 7 25 = 0 ∧
      (w.extractLsb' 0 4 = 2 ∨ w.extractLsb' 0 4 = 4 → w.extractLsb' 4 2 ≠ 3) ∧
      (w.extractLsb' 0 4 = 0 ∨ w.extractLsb' 0 4 = 1 ∨ w.extractLsb' 0 4 = 3 ∨ w.extractLsb' 0 4 = 5 →
        w.extractLsb' 4 2 = 0 ∧ w.getLsbD 6 = false) ∧
      w.extractLsb' 0 4 ≤ 5)

/-- Decoding and encoding are inverse to each other, on words and on the byte lanes of a longer stream: every
well-formed command comes back from its word, and a word that decodes is the word of what it decodes to. -/
def Obligations.DecodeAndEncodeAgree : Prop :=
  (∀ i : Instr, i.wellFormed = true →
    decode (encode i) = .ok i ∧ ∀ rest, decodeBytes (encodeBytes i ++ rest) = .ok (i, rest)) ∧
  (∀ (w : Word) (i : Instr), decode w = .ok i → i.wellFormed = true ∧ encode i = w) ∧
  (∀ (w : Word) (rest : List Byte) (i : Instr), decode w = .ok i →
    decodeBytes (lanesOfWord w ++ rest) = .ok (i, rest))

/-- A step whose next event is the host's write of a legal command word runs that command, on the state with the write
taken off the agenda and answered; the placed word of any well-formed command is such a write. -/
def Obligations.StepRunsTheDecodedCommand : Prop :=
  (∀ (s : State) (es : List Event) (w : Word) (i : Instr),
    s.agenda = wordWrite 0x004 w :: es → decode w = .ok i → step s = exec i (afterWrite es s)) ∧
  (∀ (s : State) (i : Instr), i.wellFormed = true →
    step (s.withFetchWord 32 (encode i).toNat) = exec i (afterWrite s.agenda s))

/-- R241: an accepted word that is illegal by R84 ends with `ErrCmd`, nothing but `STATUS` and `ERR_INFO` changing;
from power-on reset the word 6 gives `STATUS` 0x102 and `ERR_INFO` 0x61. -/
def Obligations.IllegalWordRaisesErrCmd : Prop :=
  (∀ (s : State) (es : List Event) (w : Word),
    s.agenda = wordWrite 0x004 w :: es → legalWord w = false → s.seq = .idle →
    step s = .next { afterWrite es s with
      status := { s.status with errCmd := true, done := true }
      errInfo := if s.errInfo.code = 0 then { code := 1, op := w.extractLsb' 0 4, tid := 0, symval := 0 }
        else s.errInfo }) ∧
  (∃ t, step (State.reset.withFetchWord 32 6) = .next t ∧
    readWord t 0x008 = 0x102 ∧ readWord t 0x018 = 0x61)

/-! ### Errors at issue -/

/-- R242: DECIDX, RECON and DECFRM, accepted without a legal configuration, end with `ErrConfig` and make no symbol
request; the example of DECIDX after power-on reset. -/
def Obligations.CommandWithoutConfigRaisesErrConfig : Prop :=
  (∀ (s : State) (i : Instr), i.wellFormed = true → i.opcode = 2 ∨ i.opcode = 3 ∨ i.opcode = 4 →
    s.seq = .idle → s.channel.cfgOk = false →
    exec i s = .next { s with
      status := { s.status with errConfig := true, done := true }
      errInfo := if s.errInfo.code = 0 then { code := 2, op := i.opcode, tid := 0, symval := 0 }
        else s.errInfo }) ∧
  (∀ c : Channel, c.cfgOk = false ↔
    ¬ (c.fsKhz ∈ [8, 12, 16]) ∨ ¬ (c.nbSubfr ∈ [2, 4])) ∧
  (∃ t, exec (.decidx 0 false) State.reset = .next t ∧
    readWord t 0x008 = 0x202 ∧ readWord t 0x018 = 0x22)

/-- R243: RECON with a legal configuration and no valid bank ends with `ErrSeq`; after a RECON that succeeds a second
one does. -/
def Obligations.ReconWithoutIndicesRaisesErrSeq : Prop :=
  (∀ s : State, s.seq = .idle → s.channel.cfgOk = true → s.idxStatus.valid = false →
    exec .recon s = .next { s with
      status := { s.status with errSeq := true, done := true }
      errInfo := if s.errInfo.code = 0 then { code := 3, op := 3, tid := 0, symval := 0 }
        else s.errInfo }) ∧
  (∀ s : State, s.seq = .idle → s.channel.cfgOk = true → s.idxStatus.valid = true →
    ∃ t u, exec .recon s = .next t ∧ exec .recon t = .next u ∧ u.status.errSeq = true ∧
      u.dc = t.dc ∧ u.channel = t.channel ∧ u.idx = t.idx)

/-- R246: PITCHMAP with operands that are not legal ends with `ErrArg`, `PM_LAG` unchanged; the operands of its worked
example are such. -/
def Obligations.IllegalOperandsRaiseErrArg : Prop :=
  (∀ s : State, s.seq = .idle → pmLegal s.pmArg = false →
    exec .pitchmap s = .next { s with
      status := { s.status with errArg := true, done := true }
      errInfo := if s.errInfo.code = 0 then { code := 6, op := 5, tid := 0, symval := 0 }
        else s.errInfo }) ∧
  pmLegal (pmWord 0 11 8 4) = false

/-- A DECIDX or DECFRM with the reserved mode, which no legal word encodes, ends with `ErrCmd` like the word of that
mode (log 13: the model's reading of a term that no word decodes to). -/
def Obligations.ReservedModeRaisesErrCmd : Prop :=
  ∀ (s : State) (vad : Bool) (i : Instr), i = .decidx 3 vad ∨ i = .decfrm 3 vad → s.seq = .idle →
    exec i s = .next { s with
      status := { s.status with errCmd := true, done := true }
      errInfo := if s.errInfo.code = 0 then { code := 1, op := i.opcode, tid := 0, symval := 0 }
        else s.errInfo }

/-- Every command issued while BUSY is refused: `ErrBusy` is recorded with the refused command's opcode, `DONE` is not
set, and the running command goes on untouched. -/
def Obligations.CommandWhileBusyIsRefused : Prop :=
  ∀ (s : State) (r : Run) (i : Instr), s.seq = .running r →
    exec i s = .next { s with
      status := { s.status with errBusy := true }
      errInfo := if s.errInfo.code = 0 then { code := 5, op := i.opcode, tid := 0, symval := 0 }
        else s.errInfo }

/-- R245: while BUSY a host write to CMD (any word, legal or not), CFG or LOSS_CNT is ignored and records `ErrBusy`,
with the word's `OP` for CMD and the running command's for the others; writes to STATUS, CTRL and PM_ARG are accepted.
-/
def Obligations.HostWritesWhileBusy : Prop :=
  ∀ (s : State) (es : List Event) (r : Run) (w : Word), s.seq = .running r →
    (s.agenda = wordWrite 0x004 w :: es → step s = .next { afterWrite es s with
      status := { s.status with errBusy := true }
      errInfo := if s.errInfo.code = 0 then { code := 5, op := w.extractLsb' 0 4, tid := 0, symval := 0 }
        else s.errInfo }) ∧
    (s.agenda = wordWrite 0x010 w :: es ∨ s.agenda = wordWrite 0x014 w :: es →
      step s = .next { afterWrite es s with
        status := { s.status with errBusy := true }
        errInfo := if s.errInfo.code = 0
          then { code := 5, op := if r.op = .decidx then 2 else 4, tid := 0, symval := 0 } else s.errInfo }) ∧
    (s.agenda = wordWrite 0x008 w :: es → ∃ t, step s = .next t ∧ t.status = s.status.clearBits w ∧ t.seq = s.seq) ∧
    (s.agenda = wordWrite 0x00C w :: es → step s = .next { afterWrite es s with irqEn := w.getLsbD 0 }) ∧
    (s.agenda = wordWrite 0x030 w :: es → step s = .next { afterWrite es s with pmArg := w })

/-- R247: an access that is not 32 bits wide, or not at a multiple of 4, has no effect but `ErrBus`; a read answers 0
with a bus error, and neither `DONE` nor a running command changes. -/
def Obligations.RefusedAccessRecordsErrBus : Prop :=
  ∀ (s : State) (es : List Event) (width : AccessWidth) (off : Offset) (w : Word),
    width ≠ .word ∨ off.toNat % 4 ≠ 0 →
    (s.agenda = .host (.read width off) :: es → step s = .next { s with
      agenda := es
      busReply := some { data := some 0, error := true }
      status := { s.status with errBus := true }
      errInfo := if s.errInfo.code = 0 then { code := 7, op := 0, tid := 0, symval := 0 } else s.errInfo }) ∧
    (s.agenda = .host (.write width off w) :: es → step s = .next { s with
      agenda := es
      busReply := some { data := none, error := true }
      status := { s.status with errBus := true }
      errInfo := if s.errInfo.code = 0 then { code := 7, op := 0, tid := 0, symval := 0 } else s.errInfo })

/-! ### The commands -/

/-- R220: NOP changes nothing but `DONE`. -/
def Obligations.NopSetsDoneOnly : Prop :=
  ∀ s : State, s.seq = .idle → exec .nop s = .next { s with status := { s.status with done := true } }

/-- R221: RESET puts the channel state and both banks into the state of power-on reset, sets `DONE`, and leaves
`CTRL`, `ERR_INFO`, the error bits, `PM_ARG` and `PM_LAG`; twice is the same as once. -/
def Obligations.ResetReinitialisesTheChannel : Prop :=
  ∀ s : State, s.seq = .idle → ∃ t, exec .reset s = .next t ∧ exec .reset t = .next t ∧
    t = { s with
      channel := State.reset.channel
      idx := State.reset.idx
      idxStatus := State.reset.idxStatus
      dc := State.reset.dc
      dcValid := false
      status := { s.status with done := true } }

/-- R110, R48: DECIDX, accepted under a legal configuration, makes the sequencer RUNNING with the request for the
signal-type table outstanding, every staged index field 0, and changes nothing else; `STATUS.BUSY` reads 1. (That the
first request is outstanding already in the accepting step: log 12.) -/
def Obligations.DecidxStartsTheExchange : Prop :=
  ∀ (s : State) (mode : BitVec 2) (vad : Bool), s.seq = .idle → s.channel.cfgOk = true → mode ≠ 3 →
    ∃ t r, exec (.decidx mode vad) s = .next t ∧ t = { s with seq := .running r } ∧
      r.op = .decidx ∧ r.mode = mode ∧ r.vad = vad ∧ r.step = .signalType ∧
      r.pending = (if vad then 1 else 0) ∧ r.response = none ∧ r.staged.bank = State.reset.idx ∧
      (readWord t 0x008).getLsbD 0 = true

/-- R222: DECFRM, accepted under a legal configuration, starts the same exchange as DECIDX. (That the first request is
outstanding already in the accepting step: log 12.) -/
def Obligations.DecfrmStartsTheExchange : Prop :=
  ∀ (s : State) (mode : BitVec 2) (vad : Bool), s.seq = .idle → s.channel.cfgOk = true → mode ≠ 3 →
    ∃ t r, exec (.decfrm mode vad) s = .next t ∧ t = { s with seq := .running r } ∧
      exec (.decidx mode vad) s = .next { s with seq := .running { r with op := .decidx } } ∧
      r.op = .decfrm ∧ r.mode = mode ∧ r.vad = vad ∧ r.pending = (if vad then 1 else 0) ∧ r.response = none ∧
      (readWord t 0x008).getLsbD 0 = true

/-- R177: RECON, accepted with a legal configuration and a valid bank, writes the whole decoder-control bank, the
channel values it carries forward, the two index fields of R35, and the flags, all from `reconCompute`; nothing else
changes (not `PREV_LAG_INDEX`, not `PREV_SIGNAL_TYPE`, not the rest of the index bank). `PREV_NLSF` becomes the
stabilized vector of the clamped sums of stage 1 and the weighted residuals (R162, R164, R165, R167, R172), 0 past the
order; `NLSF_INDEX[0]` selects the vector as an unsigned number (log 8). The other computed fields are those of
`GainsAreDequantized`, `PredictionCoefficientsAreBlended`, `VoicedFrameExpandsLtp` and `PitchmapAgreesWithRecon`. -/
def Obligations.ReconCommitsTheFrame : Prop :=
  ∀ s : State, s.seq = .idle → s.channel.cfgOk = true → s.idxStatus.valid = true →
    ∃ r, r = reconCompute Config.rom s.channel s.idx s.idxStatus.mode ∧
      exec .recon s = .next { s with
        dc := r.bank
        dcValid := true
        channel := { s.channel with
          lastGainIndex := r.lastGainIndex, prevNlsf := r.prevNlsf, firstFrame := false, lossCnt := 0 }
        idx := { s.idx with
          nlsfInterpCoef := if s.channel.firstFrame then 4 else s.idx.nlsfInterpCoef
          perIndex := if s.idx.signalType = 2 then s.idx.perIndex else 0 }
        idxStatus := { s.idxStatus with valid := false }
        status := { s.status with done := true } } ∧
      let order := lpcOrder s.channel.fsKhz.toNat
      let cb := codebookOf s.channel.fsKhz.toNat
      let stage1 := s.idx.nlsfIndex[0].toNat
      let residual := fun i => residualAfter (fun i => (s.idx.nlsfIndex.toList.getD (i + 1) 0).toInt)
        (nlsfPred Config.rom cb stage1) (qstepQ16 cb) order (order - i)
      let value := fun i => Int.tdiv (residual i * 2 ^ 14) ((Config.cb1WghtLess1 cb stage1 i).val + 1) +
        (Config.cb1Q8 cb stage1 i).toNat * 2 ^ 7
      ∀ k : Fin 16, r.prevNlsf[k] =
        if k.val < order
        then BitVec.ofInt 16 ((nlsfStabilize (deltaMinQ15 cb)
          ((List.range order).map fun i => min (max (value i) 0) 32767)).getD k.val 0)
        else 0

/-- R200, R201: PITCHMAP with legal operands writes the clamped lag of each subframe, 0 beyond the subframe count, and
changes nothing else but `DONE`. The contour offset is read from the table of (fs, nsf). -/
def Obligations.PitchmapWritesTheLags : Prop :=
  ∀ s : State, s.seq = .idle → pmLegal s.pmArg = true →
    ∃ t, exec .pitchmap s = .next t ∧
      t = { s with pmLag := t.pmLag, status := { s.status with done := true } } ∧
      ∀ k : Fin 4, ∃ offset,
        (k.val < pmNsf s.pmArg →
          ((contourTable (pmFs s.pmArg) (pmNsf s.pmArg))[k.val]?.bind (·[pmContour s.pmArg]?)) = some offset) ∧
        t.pmLag[k] = if k.val < pmNsf s.pmArg
          then BitVec.ofInt 32 (min (max (2 * pmFs s.pmArg + pmLagIndex s.pmArg + offset) (2 * pmFs s.pmArg))
            (18 * pmFs s.pmArg))
          else 0

/-- No command stops the machine: an error changes `STATUS` and `ERR_INFO` only (R240), and the registers that the
commands write (R110, R150, R200, R220, R221, R222) are neither `CTRL` nor `PM_ARG`, which host writes alone store to
(R43, R47, R65). That a command leaves the model's own fields, the agenda and the bus's answer, is the model's choice
(log 1, log 2). -/
def Obligations.ExecAlwaysAnswersNext : Prop :=
  ∀ (i : Instr) (s : State), ∃ t, exec i s = .next t ∧
    t.irqEn = s.irqEn ∧ t.pmArg = s.pmArg ∧ t.agenda = s.agenda ∧ t.busReply = s.busReply

/-- R48: NOP, RESET, RECON and PITCHMAP complete in the step that accepts them: the sequencer is as before, and for an
idle block `DONE` is set. -/
def Obligations.ImmediateCommandsLeaveTheSequencer : Prop :=
  ∀ (i : Instr) (s : State), i.opcode ≠ 2 → i.opcode ≠ 4 →
    ∃ t, exec i s = .next t ∧ t.seq = s.seq ∧ (s.seq = .idle → t.status.done = true)

/-! ### The symbol exchange -/

/-- R111 and R130 for DECIDX: the sequencer, fed the Symbol Decoder's answers one by one, does exactly what the
procedure of R111 does with the same answers: it waits with that procedure's request outstanding, or aborts on that
procedure's out-of-range answer, or commits that procedure's staged values, and changes nothing else. (That each
answer takes two steps, its arrival and its acceptance, with the next request or the commit in the latter: log 12.) -/
def Obligations.DecidxRunsTheProcedure : Prop :=
  ∀ (s : State) (mode : BitVec 2) (vad : Bool) (answers : List Byte),
    s.seq = .idle → s.channel.cfgOk = true → mode ≠ 3 →
    ∃ a, exec (.decidx mode vad) s = .next a ∧
      let after := runSteps (2 * answers.length) { a with agenda := symbolAgenda answers }
      match (indexProcedure Config.rom mode vad s.channel).run answers with
      | .error (.waiting tid) => ∃ r, after = .next { s with agenda := [], seq := .running r } ∧
          r.op = .decidx ∧ r.mode = mode ∧ r.vad = vad ∧ r.pending = tid ∧ r.response = none
      | .error (.outOfRange tid v unread) => unread = [] → after = .next { s with
          agenda := []
          status := { s.status with errSymbol := true, done := true }
          errInfo := if s.errInfo.code = 0 then { code := 4, op := 2, tid := tid, symval := v } else s.errInfo }
      | .ok (st, unread) => unread = [] → after = .next { s with
          agenda := []
          idx := st.bank
          idxStatus := { valid := true, mode := mode, vad := vad }
          channel := { s.channel with prevLagIndex := st.prevLagIndex, prevSignalType := st.bank.signalType }
          status := { s.status with done := true } }

/-- R222: with the same symbol answers, DECFRM ends in the state that DECIDX followed by RECON ends in, and aborts as
DECIDX aborts, but for the opcode in `ERR_INFO`. (That it reconstructs and commits in the step that accepts the seed,
after as many steps as DECIDX: log 12.) -/
def Obligations.DecfrmEqualsDecidxThenRecon : Prop :=
  ∀ (s : State) (mode : BitVec 2) (vad : Bool) (answers : List Byte),
    s.seq = .idle → s.channel.cfgOk = true → mode ≠ 3 →
    ∃ a b, exec (.decidx mode vad) s = .next a ∧ exec (.decfrm mode vad) s = .next b ∧
      let afterDecidx := runSteps (2 * answers.length) { a with agenda := symbolAgenda answers }
      let afterDecfrm := runSteps (2 * answers.length) { b with agenda := symbolAgenda answers }
      match (indexProcedure Config.rom mode vad s.channel).run answers with
      | .error (.waiting _) => ∃ r, afterDecidx = .next { s with agenda := [], seq := .running r } ∧
          afterDecfrm = .next { s with agenda := [], seq := .running { r with op := .decfrm } }
      | .error (.outOfRange tid v unread) => unread = [] →
          ∃ t, afterDecidx = .next t ∧ afterDecfrm = .next { t with
            errInfo := if s.errInfo.code = 0 then { code := 4, op := 4, tid := tid, symval := v } else s.errInfo }
      | .ok (_, unread) => unread = [] → ∃ t u, afterDecidx = .next t ∧ exec .recon t = .next u ∧
          afterDecfrm = .next u

/-- R138: the number of symbol requests of a successful procedure. The lag is coded absolutely unless the delta was
tried and its answer, the one after those of the gains, the NLSF and the interpolation factor, was not 0. -/
def Obligations.RequestCountOfAFrame : Prop :=
  ∀ (rom : Rom) (mode : BitVec 2) (vad : Bool) (ch : Channel) (answers : List Byte) (st : Staged),
    ch.cfgOk = true → mode ≠ 3 → (indexProcedure rom mode vad ch).run answers = .ok (st, []) →
    let nsf := ch.nbSubfr.toNat
    let base := baseRequests (conditionalMode mode) nsf (lpcOrder ch.fsKhz.toNat)
      (escapeCount st.bank (lpcOrder ch.fsKhz.toNat))
    if st.bank.signalType = 2 then
      let tried := decide (mode = 2 ∧ ch.prevSignalType = 2)
      ∃ absolute, (absolute = true ↔ tried = false ∨ answers[base - 1]? = some 0) ∧
        answers.length = base + voicedRequests tried absolute (decide (mode = 0)) nsf
    else answers.length = base

/-- R135, R121, R131: the fields a frame does not decode are committed as 0, the interpolation factor as 4 with two
subframes, and the channel's lag index is kept by a frame that is not voiced (R127). -/
def Obligations.UndecodedFieldsAreZero : Prop :=
  ∀ (rom : Rom) (mode : BitVec 2) (vad : Bool) (ch : Channel) (answers : List Byte) (st : Staged),
    ch.cfgOk = true → mode ≠ 3 → (indexProcedure rom mode vad ch).run answers = .ok (st, []) →
    (∀ k : Fin 4, ch.nbSubfr.toNat ≤ k.val → st.bank.gainsIndex[k] = 0 ∧ st.bank.ltpIndex[k] = 0) ∧
    (∀ k : Fin 17, lpcOrder ch.fsKhz.toNat < k.val → st.bank.nlsfIndex[k] = 0) ∧
    (ch.nbSubfr = 2 → st.bank.nlsfInterpCoef = 4) ∧
    (mode ≠ 0 → st.bank.ltpScaleIndex = 0) ∧
    (st.bank.signalType ≠ 2 → st.bank.lagIndex = 0 ∧ st.bank.contourIndex = 0 ∧ st.bank.perIndex = 0 ∧
      st.bank.ltpScaleIndex = 0 ∧ (∀ k : Fin 4, st.bank.ltpIndex[k] = 0) ∧
      st.prevLagIndex = ch.prevLagIndex) ∧
    (st.bank.signalType = 2 → st.prevLagIndex = st.bank.lagIndex)

/-- R134, R244: an answer that is not below its table's alphabet ends the running command with `ErrSymbol`; nothing it
staged is committed. -/
def Obligations.OutOfRangeSymbolAborts : Prop :=
  ∀ (s : State) (es : List Event) (r : Run) (v : Byte),
    s.agenda = .block :: es → s.seq = .running r → r.response = some v → alphabet r.pending ≤ (v.toNat : Int) →
    step s = .next { s with
      agenda := es
      seq := .idle
      status := { s.status with errSymbol := true, done := true }
      errInfo := if s.errInfo.code = 0
        then { code := 4, op := if r.op = .decidx then 2 else 4, tid := r.pending, symval := v }
        else s.errInfo }

/-- R49, R67: while a command goes on running, an answer and its acceptance change no register that the host can read.
-/
def Obligations.StagedValuesAreInvisible : Prop :=
  ∀ (s t : State) (e : Event) (es : List Event) (r : Run),
    s.agenda = e :: es → (e = .block ∨ ∃ v, e = .respond v) → s.seq = .running r → step s = .next t →
    t.busy = true → ∀ off : Offset, readWord t off = readWord s off

/-- R114: the answer to a delta gain request becomes the subframe's gain index, and the next request is for the next
subframe's delta, or after the last one for the NLSF stage 1 of the frame's codebook and voicing (R116). (That it goes
out in the accepting step: log 12.) -/
def Obligations.GainSymbolsAreStored : Prop :=
  ∀ (s : State) (es : List Event) (r : Run) (v : Byte) (k : Fin 4),
    s.agenda = .block :: es → s.seq = .running r → r.response = some v → r.step = .gainDelta k.val →
    r.pending = 6 → v < 41 → s.channel.cfgOk = true →
    ∃ r', step s = .next { s with agenda := es, seq := .running r' } ∧
      r'.staged.bank.gainsIndex[k] = v ∧ (∀ j : Fin 4, j ≠ k →
        r'.staged.bank.gainsIndex[j] = r.staged.bank.gainsIndex[j]) ∧ r'.response = none ∧
      (if k.val + 1 < s.channel.nbSubfr.toNat then r'.step = .gainDelta (k.val + 1) ∧ r'.pending = 6
        else r'.step = .stage1 ∧ r'.pending = (if s.channel.fsKhz = 16 then 9 else 7) +
          (if r.staged.bank.signalType = 2 ∨ r.staged.bank.signalType = 3 then 1 else 0))

/-- R119, R120, R139: a residual symbol 0 or 8 asks for exactly one extension symbol, which is subtracted or added;
any other symbol asks for none; the stored value is offset by 4. (That the next request goes out in the accepting
step: log 12.) -/
def Obligations.EscapeTakesOneExtension : Prop :=
  ∀ (s : State) (es : List Event) (r : Run) (v : Byte) (i : Nat),
    s.agenda = .block :: es → s.seq = .running r → r.response = some v → i < 16 →
    (r.step = .residual i → alphabet r.pending = 9 → v < 9 →
      ∃ r', step s = .next { s with agenda := es, seq := .running r' } ∧ r'.response = none ∧
        (if v = 0 ∨ v = 8 then r'.step = .extension i v ∧ r'.pending = 27 ∧ r'.staged = r.staged
          else r'.step ≠ .residual i ∧ (∀ j x, r'.step ≠ .extension j x) ∧
            (r'.staged.bank.nlsfIndex.toList[i + 1]?.map BitVec.toInt) = some ((v.toNat : Int) - 4))) ∧
    (∀ x : Byte, r.step = .extension i x → x = 0 ∨ x = 8 → r.pending = 27 → v < 7 →
      ∃ r', step s = .next { s with agenda := es, seq := .running r' } ∧ r'.response = none ∧
        (∀ j y, r'.step ≠ .extension j y) ∧
        (r'.staged.bank.nlsfIndex.toList[i + 1]?.map BitVec.toInt) =
          some (if x = 0 then -(v.toNat : Int) - 4 else 4 + (v.toNat : Int)))

/-- R124, R125: the delta pitch symbol 0 falls back to the absolute request; any other one gives the previous lag
index plus the symbol less 9, wrapped to 16 bits, and the contour is asked for next. (In the accepting step: log 12.)
-/
def Obligations.DeltaPitchOrFallback : Prop :=
  ∀ (s : State) (es : List Event) (r : Run) (v : Byte),
    s.agenda = .block :: es → s.seq = .running r → r.response = some v → r.step = .pitchDelta → r.pending = 29 →
    v < 21 →
    ∃ r', step s = .next { s with agenda := es, seq := .running r' } ∧ r'.response = none ∧
      (if v = 0 then r'.step = .pitchHigh ∧ r'.pending = 30 ∧ r'.staged = r.staged
        else r'.step = .contour ∧
          r'.staged.bank.lagIndex = s.channel.prevLagIndex + v.setWidth 16 - 9 ∧
          r'.staged.prevLagIndex = r'.staged.bank.lagIndex)

/-- An answer with no request awaiting one stops the machine (log 3: the model's choice for what R92 rules out), and
nothing else does. -/
def Obligations.OnlyUnrequestedAnswersFault : Prop :=
  ∀ (s : State), (∀ x, step s ≠ .refused x) ∧
    ((∃ f, step s = .fault f) ↔
      ∃ v es, s.agenda = .respond v :: es ∧ ∀ r, s.seq = .running r → r.response ≠ none)

/-- R259, R287: with nothing on the agenda the machine waits (log 1: the agenda is the model's choice), and the block's
own turn changes nothing while it is idle or while the answer is still to come. -/
def Obligations.TheBlockWaits : Prop :=
  (∀ s : State, s.agenda = [] → step s = .next s) ∧
  (∀ (s : State) (es : List Event), s.agenda = .block :: es →
    (∀ r, s.seq = .running r → r.response = none) → step s = .next { s with agenda := es })

/-! ### The arithmetic of the reconstructor and the mapper -/

/-- R151 to R155: RECON writes to `GAIN_Q16[k]` the table's gain of the running index after subframe `k`, 0 past the
subframe count, and to `LAST_GAIN_INDEX` the last running index. Every running index lies in [0, 63], for any indices
and any previous index, and there is one for each subframe. -/
def Obligations.GainsAreDequantized : Prop :=
  (∀ (conditional : Bool) (last : Int) (inds : List Int),
    (gainIndices conditional last inds).length = inds.length ∧
    ∀ g ∈ gainIndices conditional last inds, 0 ≤ g ∧ g ≤ 63) ∧
  ∀ s : State, s.seq = .idle → s.channel.cfgOk = true → s.idxStatus.valid = true →
    ∃ t, exec .recon s = .next t ∧
      let prev := runningGain (decide (s.idxStatus.mode = 2)) s.channel.lastGainIndex.toInt
        (fun k => (s.idx.gainsIndex.toList.getD k 0).toInt)
      (∀ k : Fin 4, t.dc.gainQ16[k] =
        if k.val < s.channel.nbSubfr.toNat then BitVec.ofInt 32 (gainLut (prev (k.val + 1))) else 0) ∧
      t.channel.lastGainIndex.toInt = prev s.channel.nbSubfr.toNat

/-- R154: the gain table in full as the spec prints it, strictly increasing from 81920 to 1686110208. -/
def Obligations.GainTableIncreases : Prop :=
  (List.range 64).map (fun k => gainLut k) =
      [81920, 96256, 112640, 131072, 153600, 180224, 210944, 246784] ++
      [286720, 335872, 397312, 464896, 540672, 634880, 745472, 872448] ++
      [1019904, 1187840, 1392640, 1646592, 1925120, 2244608, 2621440, 3080192] ++
      [3604480, 4194304, 4915200, 5767168, 6782976, 7929856, 9240576, 10813440] ++
      [12713984, 14876672, 17301504, 20316160, 23855104, 28049408, 32768000, 38273024] ++
      [44826624, 52690944, 61603840, 71827456, 83886080, 98566144, 115867648, 135266304] ++
      [158334976, 185597952, 217055232, 253755392, 295698432, 346030080, 406847488, 480247808] ++
      [557842432, 654311424, 767557632, 897581056, 1048576000, 1224736768, 1434451968, 1686110208] ∧
  ∀ k : Fin 63, gainLut k.val < gainLut (k.val + 1)

/-- R163: for indices in -10 to 10 and predictors below 256 the 16-bit wrap of the running residual changes nothing,
and every residual is below 29184 in magnitude. (R163's own step bounds the term by 1824; a negative one reaches
-1825, and the predictors of at most 255 keep the bound all the same.) -/
def Obligations.ResidualWrapHasNoEffect : Prop :=
  ∀ (cb : Codebook) (xs : List (Int × Int)), xs.length ≤ 16 →
    (∀ x ∈ xs, -10 ≤ x.1 ∧ x.1 ≤ 10 ∧ 0 ≤ x.2 ∧ x.2 ≤ 255) →
    residualDequant (qstepQ16 cb) xs = residualExact (qstepQ16 cb) xs ∧
    ∀ r ∈ residualDequant (qstepQ16 cb) xs, -29184 < r ∧ r < 29184

/-- R166, R167: for every minimum-delta table that meets the constraint, the stabilizer's result lies in [0, 32767],
is spaced by the minimum deltas at least, and has as many elements as its argument; the default tables meet it. -/
def Obligations.StabilizerSpacesTheVector : Prop :=
  (∀ cb : Codebook, deltaMinLegal (deltaMinQ15 cb) = true ∧ (deltaMinQ15 cb).length = codebookOrder cb + 1) ∧
  ∀ (d x : List Int), x ≠ [] → d.length = x.length + 1 → deltaMinLegal d = true →
    (nlsfStabilize d x).length = x.length ∧
    (∀ y ∈ nlsfStabilize d x, 0 ≤ y ∧ y ≤ 32767) ∧
    (nlsfStabilize d x).getD 0 0 ≥ d.getD 0 0 ∧
    (∀ i, i + 1 < x.length →
      (nlsfStabilize d x).getD i 0 + d.getD (i + 1) 0 ≤ (nlsfStabilize d x).getD (i + 1) 0) ∧
    (nlsfStabilize d x).getD (x.length - 1) 0 ≤ 32768 - d.getD x.length 0

/-- R167: a vector that already keeps its distances is returned unchanged. -/
def Obligations.StableVectorIsUnchanged : Prop :=
  ∀ (d x : List Int), d.length = x.length + 1 →
    (∀ m ∈ slacks 0 x d, 0 ≤ m) → nlsfStabilize d x = x

/-- R168 to R173: RECON converts the new `PREV_NLSF` for the second half of `PRED_COEF_Q12`, and for the first half
its blend with the old one when the factor is below 4, else a copy; after a loss both are expanded; 0 past the order.
The blend of a factor 0 to 4 lies between the previous and the current value; factor 0 gives the previous one, factor
4 the current one. -/
def Obligations.PredictionCoefficientsAreBlended : Prop :=
  (∀ f prev cur : Int, 0 ≤ f → f ≤ 4 →
    min prev cur ≤ blend f prev cur ∧ blend f prev cur ≤ max prev cur ∧
    blend 0 prev cur = prev ∧ blend 4 prev cur = cur) ∧
  ∀ s : State, s.seq = .idle → s.channel.cfgOk = true → s.idxStatus.valid = true →
    ∃ t, exec .recon s = .next t ∧
      let order := lpcOrder s.channel.fsKhz.toNat
      let f : Int := if s.channel.firstFrame then 4 else s.idx.nlsfInterpCoef.toNat
      let prev := fun i => ((s.channel.prevNlsf.toList.getD i 0).toNat : Int)
      let cur := fun i => ((t.channel.prevNlsf.toList.getD i 0).toNat : Int)
      let second := nlsf2aAt order cur
      let first := if f < 4 then nlsf2aAt order (fun i => prev i + (f * (cur i - prev i)) / 4) else second
      ∀ k : Fin 16,
        t.dc.predCoef1[k] = (if k.val < order then expandedAt s.channel.lossCnt k.val (second k.val) else 0) ∧
        t.dc.predCoef0[k] = (if k.val < order then expandedAt s.channel.lossCnt k.val (first k.val) else 0)

/-- R173: bandwidth expansion keeps 16-bit coefficients within 16 bits, and their number. -/
def Obligations.BandwidthExpansionFits : Prop :=
  ∀ a : List Int, (∀ x ∈ a, -32768 ≤ x ∧ x ≤ 32767) →
    (bwExpand a bweAfterLossQ16).length = a.length ∧
    ∀ y ∈ bwExpand a bweAfterLossQ16, -32768 ≤ y ∧ y ≤ 32767

/-- R205: every lag the mapper returns lies in [2 fs, 18 fs], for any lag index and any contour index, and there is
one for each subframe. -/
def Obligations.PitchLagsAreClamped : Prop :=
  ∀ (lagIndex : Int) (contour fs nsf : Nat),
    (pitchMap lagIndex contour fs nsf).length = nsf ∧
    ∀ l ∈ pitchMap lagIndex contour fs nsf, 2 * (fs : Int) ≤ l ∧ l ≤ 18 * (fs : Int)

/-- R206: PITCHMAP on the operands of a voiced frame returns the lags that RECON commits for that frame. -/
def Obligations.PitchmapAgreesWithRecon : Prop :=
  ∀ s : State, s.seq = .idle → s.channel.cfgOk = true → s.idxStatus.valid = true → s.idx.signalType = 2 →
    s.idx.contourIndex.toNat < contourSize s.channel.fsKhz.toNat s.channel.nbSubfr.toNat →
    ∃ t u, exec .recon s = .next t ∧
      exec .pitchmap { t with
        pmArg := pmWord s.idx.lagIndex s.idx.contourIndex s.channel.fsKhz s.channel.nbSubfr } = .next u ∧
      u.pmLag = t.dc.pitchLag ∧ u.status.errArg = s.status.errArg

/-- R168, R171: on the first frame after a reset both halves get the same coefficients, whatever interpolation factor
was decoded, and the factor reads 4 afterwards. -/
def Obligations.FirstFrameNeverInterpolates : Prop :=
  ∀ s : State, s.seq = .idle → s.channel.cfgOk = true → s.idxStatus.valid = true → s.channel.firstFrame = true →
    ∃ t, exec .recon s = .next t ∧ t.dc.predCoef0 = t.dc.predCoef1 ∧ t.idx.nlsfInterpCoef = 4 ∧
      t.channel.firstFrame = false

/-- R176: RECON of a frame that is not voiced zeroes every pitch and LTP output and the periodicity index. -/
def Obligations.UnvoicedFrameZeroesPitchAndLtp : Prop :=
  ∀ s : State, s.seq = .idle → s.channel.cfgOk = true → s.idxStatus.valid = true → s.idx.signalType ≠ 2 →
    ∃ t, exec .recon s = .next t ∧ (∀ k : Fin 4, t.dc.pitchLag[k] = 0) ∧ (∀ k : Fin 20, t.dc.ltpCoefQ14[k] = 0) ∧
      t.dc.ltpScaleQ14 = 0 ∧ t.idx.perIndex = 0

/-- R175: RECON of a voiced frame writes each subframe's taps from the LTP codebook, shifted to Q14, zeros beyond the
subframe count, and the scale of the scale index. -/
def Obligations.VoicedFrameExpandsLtp : Prop :=
  ∀ s : State, s.seq = .idle → s.channel.cfgOk = true → s.idxStatus.valid = true → s.idx.signalType = 2 →
    s.idx.ltpScaleIndex ≠ 3 →
    ∃ t, exec .recon s = .next t ∧
      (∀ (k : Fin 4) (i : Fin 5), t.dc.ltpCoefQ14.toList[5 * k.val + i.val]? = some
        (if k.val < s.channel.nbSubfr.toNat
          then (Config.ltpVqQ7 s.idx.perIndex.toNat s.idx.ltpIndex[k].toNat i.val).signExtend 16 <<< 7 else 0)) ∧
      t.dc.ltpScaleQ14 = (if s.idx.ltpScaleIndex = 0 then 15565 else if s.idx.ltpScaleIndex = 1 then 12288 else 8192)

/-- R37, D28: RECON writes 0 to every output position beyond the subframe count or the order (R155, R170, R172, R174,
R175). -/
def Obligations.ReconZeroesUnusedEntries : Prop :=
  ∀ s : State, s.seq = .idle → s.channel.cfgOk = true → s.idxStatus.valid = true →
    ∃ t, exec .recon s = .next t ∧
      (∀ k : Fin 4, s.channel.nbSubfr.toNat ≤ k.val → t.dc.gainQ16[k] = 0 ∧ t.dc.pitchLag[k] = 0) ∧
      (∀ k : Fin 20, 5 * s.channel.nbSubfr.toNat ≤ k.val → t.dc.ltpCoefQ14[k] = 0) ∧
      (∀ k : Fin 16, lpcOrder s.channel.fsKhz.toNat ≤ k.val →
        t.dc.predCoef0[k] = 0 ∧ t.dc.predCoef1[k] = 0 ∧ t.channel.prevNlsf[k] = 0)

/-- R177: RECON depends on nothing but the index bank, `IDX_STATUS.MODE`, `CFG`, `LAST_GAIN_INDEX`, `PREV_NLSF`,
`FIRST_FRAME` and whether `LOSS_CNT` is 0 (D24): two states that agree on those get the same outputs. -/
def Obligations.ReconDependsOnlyOnItsOperands : Prop :=
  ∀ s s' : State, s.seq = .idle → s'.seq = .idle → s.channel.cfgOk = true →
    s.idxStatus.valid = true → s'.idxStatus.valid = true →
    s.idx = s'.idx → s.idxStatus.mode = s'.idxStatus.mode → s.channel.fsKhz = s'.channel.fsKhz →
    s.channel.nbSubfr = s'.channel.nbSubfr → s.channel.lastGainIndex = s'.channel.lastGainIndex →
    s.channel.prevNlsf = s'.channel.prevNlsf → s.channel.firstFrame = s'.channel.firstFrame →
    (s.channel.lossCnt = 0 ↔ s'.channel.lossCnt = 0) →
    ∃ t t', exec .recon s = .next t ∧ exec .recon s' = .next t' ∧ t.dc = t'.dc ∧ t.idx = t'.idx ∧
      t.channel.lastGainIndex = t'.channel.lastGainIndex ∧ t.channel.prevNlsf = t'.channel.prevNlsf ∧
      t.channel.lossCnt = t'.channel.lossCnt ∧ t.channel.firstFrame = t'.channel.firstFrame

/-! ### Registers, reset, errors and the interrupt -/

/-- R96: every register is found at its offset, a multiple of 4 in the window, and no offset shows two registers. -/
def Obligations.RegisterMapIsConsistent : Prop :=
  (∀ r : Reg, regAt (BitVec.ofNat 12 r.offset) = some r ∧ r.offset % 4 = 0 ∧ r.offset < 4096) ∧
  ∀ (off : Offset) (r : Reg), off.toNat % 4 = 0 → regAt off = some r → r.offset = off.toNat

/-- R66: a served read, whatever comes after it, changes nothing but the bus's answer, which is the word at the
offset; every offset then reads as before, and a second read of the same offset right after it gives the same answer.
-/
def Obligations.ReadsHaveNoSideEffect : Prop :=
  ∀ (s : State) (off : Offset) (es : List Event), off.toNat % 4 = 0 → s.agenda = wordRead off :: es →
    ∃ t, step s = .next t ∧
      t = { s with agenda := es, busReply := some { data := some (readWord s off), error := false } } ∧
      (∀ other : Offset, readWord t other = readWord s other) ∧
      ∀ es', es = wordRead off :: es' → step t = .next { t with agenda := es' }

/-- R64: a write to an offset that holds no register, or to a read-only register, changes nothing, and a read of an
offset that holds none returns 0. -/
def Obligations.IgnoredWrites : Prop :=
  (∀ (s : State) (es : List Event) (off : Offset) (w : Word), off.toNat % 4 = 0 →
    (∀ r, regAt off = some r → r.writable = false) → s.agenda = wordWrite off w :: es →
    step s = .next (afterWrite es s)) ∧
  (∀ (s : State) (off : Offset), regAt off = none → readWord s off = 0)

/-- R29, R44, R290: an accepted CFG write sets both fields from the word and clears `IDX_STATUS.VALID`, nothing else
changes, and CFG then reads back both fields and `CFG_OK` (R29). How the other two derived fields read under a sample
rate and a subframe count of which one is illegal is the model's reading (log 7, DEDUCED): `LPC_ORDER` follows `FS_KHZ`
alone (R30), and `CB_WB` reads 0 whenever `CFG_OK` is 0, which part 1 of 93_implementation_defined.md says and R44 with
R30, read plainly, does not. -/
def Obligations.CfgWriteConfigures : Prop :=
  ∀ (s : State) (es : List Event) (w : Word), s.seq = .idle → s.agenda = wordWrite 0x010 w :: es →
    ∃ t, step s = .next t ∧
      t = { afterWrite es s with
        channel := { s.channel with fsKhz := w.extractLsb' 0 5, nbSubfr := w.extractLsb' 8 3 }
        idxStatus := { s.idxStatus with valid := false } } ∧
      (readWord t 0x010).extractLsb' 0 5 = w.extractLsb' 0 5 ∧
      (readWord t 0x010).extractLsb' 8 3 = w.extractLsb' 8 3 ∧
      ((readWord t 0x010).extractLsb' 16 5 = if w.extractLsb' 0 5 = 16 then 16
        else if w.extractLsb' 0 5 = 8 ∨ w.extractLsb' 0 5 = 12 then 10 else 0) ∧
      ((readWord t 0x010).getLsbD 24 = true ↔
        w.extractLsb' 0 5 ∈ [8, 12, 16] ∧ w.extractLsb' 8 3 ∈ [2, 4]) ∧
      ((readWord t 0x010).getLsbD 25 = true ↔ w.extractLsb' 0 5 = 16 ∧ w.extractLsb' 8 3 ∈ [2, 4])

/-- R28, R43, R47: an accepted LOSS_CNT write and any PM_ARG write store the whole word, any CTRL write its bit 0;
nothing else changes, and the register reads back what was stored. -/
def Obligations.PlainWritesStore : Prop :=
  ∀ (s : State) (es : List Event) (w : Word),
    (s.seq = .idle → s.agenda = wordWrite 0x014 w :: es →
      ∃ t, step s = .next t ∧ t = { afterWrite es s with channel := { s.channel with lossCnt := w } } ∧
        readWord t 0x014 = w) ∧
    (s.agenda = wordWrite 0x00C w :: es →
      ∃ t, step s = .next t ∧ t = { afterWrite es s with irqEn := w.getLsbD 0 } ∧ readWord t 0x00C = w &&& 1) ∧
    (s.agenda = wordWrite 0x030 w :: es →
      ∃ t, step s = .next t ∧ t = { afterWrite es s with pmArg := w } ∧ readWord t 0x030 = w)

/-- R42, R46: a STATUS write clears exactly the `DONE` and error bits written 1, and clears ERR_INFO when no error bit
is left; BUSY and everything else stay. -/
def Obligations.StatusWriteClears : Prop :=
  ∀ (s : State) (es : List Event) (w : Word), s.agenda = wordWrite 0x008 w :: es →
    ∃ t, step s = .next t ∧ t = { afterWrite es s with status := t.status, errInfo := t.errInfo } ∧
      (readWord t 0x008 = readWord s 0x008 &&& ~~~(w &&& 0x7F02)) ∧
      readWord t 0x018 = (if readWord t 0x008 &&& 0x7F00 = 0 then 0 else readWord s 0x018)

/-- R250: the interrupt line is `IRQ_EN` and any of `DONE` and the error bits, as the host reads them; it is 0 after
power-on reset (R281). -/
def Obligations.InterruptLine : Prop :=
  (∀ s : State, s.irq = true ↔ (readWord s 0x00C).getLsbD 0 = true ∧ readWord s 0x008 &&& 0x7F02 ≠ 0) ∧
  State.reset.irq = false

/-- R53, R280: what the host reads after power-on reset, register by register; the sequencer is idle. -/
def Obligations.PowerOnResetValues : Prop :=
  (∀ r : Reg, r.read State.reset = if r = .id then 0x4A534531 else if r = .firstFrame then 1 else 0) ∧
  State.reset.seq = .idle

/-- R270, R287: power-on reset ends any state, a running command's included, in the state of power-on reset. -/
def Obligations.PowerOnResetsFromAnyState : Prop :=
  ∀ (s : State) (es : List Event), s.agenda = .powerOn :: es → step s = .next { State.reset with agenda := es }

/-- R23, R24, R39: in any step, `PREV_NLSF`, `LAST_GAIN_INDEX` and the decoder-control bank change only by an accepted
RECON or RESET, by the end of a running DECFRM, or by power-on reset. (That DECFRM ends in the step that accepts the
seed: log 12.) -/
def Obligations.WhoWritesTheReconstructedState : Prop :=
  ∀ s t : State, step s = .next t →
    (t.channel.prevNlsf ≠ s.channel.prevNlsf ∨ t.channel.lastGainIndex ≠ s.channel.lastGainIndex ∨ t.dc ≠ s.dc) →
    ∃ e es, s.agenda = e :: es ∧
      ((s.seq = .idle ∧ (e = wordWrite 0x004 0x00000001 ∨ e = wordWrite 0x004 0x00000003)) ∨
        (e = .block ∧ ∃ r, s.seq = .running r ∧ r.op = .decfrm ∧ r.step = .seed ∧ t.seq = .idle) ∨
        e = .powerOn)

/-! ### Invariants of every step -/

/-- R46, R240: `ERR_INFO` describes an error exactly while an error bit is set, and holds only what R46 and R248
allow: every step keeps this. -/
def Obligations.EveryStepKeepsTheErrorRecordCoherent : Prop :=
  ∀ s t : State, ErrorRecordCoherent s → step s = .next t → ErrorRecordCoherent t

/-- R48, R94, R111: a running command has a legal configuration and mode, and its outstanding request is the one that
its step and its staged values call for, never a reserved table id: every step keeps this. -/
def Obligations.EveryStepKeepsTheSequencerCoherent : Prop :=
  ∀ s t : State, SequencerCoherent Config.rom s → step s = .next t → SequencerCoherent Config.rom t

/-- R32, R128, R136: every index field, committed or staged, stays in the range of the table it was drawn from, and a
valid bank goes with the configuration it was decoded under: every step keeps this (given the coherent sequencer,
itself kept). -/
def Obligations.EveryStepKeepsTheIndicesInRange : Prop :=
  ∀ s t : State, SequencerCoherent Config.rom s → IndicesInRange s → step s = .next t → IndicesInRange t

/-- R37, R23, R24: gains, lags, taps, scale, the previous NLSFs and the last gain index stay in the ranges the spec
gives them: every step keeps this (given the two invariants above, themselves kept). -/
def Obligations.EveryStepKeepsTheControlBankInRange : Prop :=
  ∀ s t : State, SequencerCoherent Config.rom s → IndicesInRange s → ControlInRange s → step s = .next t →
    ControlInRange t

/-- The four invariants hold after power-on reset. -/
def Obligations.InvariantsHoldAtReset : Prop :=
  ErrorRecordCoherent State.reset ∧ SequencerCoherent Config.rom State.reset ∧ IndicesInRange State.reset ∧
    ControlInRange State.reset
end

