-- ==== Sys2Proof/Laws/FixedPoint.lean ====
section
/-! SUPPORT. The small lemmas of the fixed-point helpers and of packing. -/

namespace Sys2Proof.Machine

theorem clamp_mem {x lo hi : Int} (h : lo ≤ hi) : lo ≤ clamp x lo hi ∧ clamp x lo hi ≤ hi := by
  unfold clamp
  rw [if_pos h]
  omega

theorem clamp_eq_self {x lo hi : Int} (h1 : lo ≤ x) (h2 : x ≤ hi) : clamp x lo hi = x := by
  unfold clamp
  rw [if_pos (by omega)]
  omega

theorem clamp_eq_min_max {x lo hi : Int} (h : lo ≤ hi) : clamp x lo hi = min (max x lo) hi := by
  unfold clamp
  rw [if_pos h]

/-- `rshift_round(x, 16)`, the one of bandwidth expansion (R173). -/
theorem rshiftRound_sixteen (x : Int) : rshiftRound x 16 = (x + 32768) / 65536 := by
  simp only [rshiftRound, asr]
  norm_num
  omega

theorem asr_one (x : Int) : asr x 1 = x / 2 := by simp [asr]

theorem asr_zero (n : Nat) : asr 0 n = 0 := by simp [asr]

theorem shl_zero (n : Nat) : shl 0 n = 0 := by simp [shl]

/-- A value that a 16-bit signed register can hold is not changed by the wrap of R163. -/
theorem wrap16_eq_self {x : Int} (h1 : -32768 ≤ x) (h2 : x ≤ 32767) : wrap16 x = x := by
  unfold wrap16 sext16
  rw [BitVec.toInt_ofInt]
  simp only [Int.bmod]
  omega

theorem sat16_mem (x : Int) : -32768 ≤ sat16 x ∧ sat16 x ≤ 32767 := clamp_mem (by decide)

theorem tabulate_getElem {α : Type} (n : Nat) (f : Nat → α) (k : Nat) (h : k < n) :
    (tabulate n f)[k] = f k := by
  simp [tabulate]

theorem pack_getElem (w n : Nat) (xs : List Int) (k : Nat) (h : k < n) :
    (pack w n xs)[k] = BitVec.ofInt w (xs.getD k 0) := by
  simp [pack, tabulate_getElem]

/-- Past the end of the sequence a packed bank holds 0 (D26, D28). -/
theorem pack_getElem_beyond (w n : Nat) (xs : List Int) (k : Nat) (h : k < n) (hx : xs.length ≤ k) :
    (pack w n xs)[k] = 0 := by
  rw [pack_getElem, List.getD_eq_default _ _ hx]
  simp

end Sys2Proof.Machine
end

