-- ==== Sys2Proof/Laws/State.lean ====
section
/-! SUPPORT. What each named update of the state leaves in each field: no later proof unfolds a record update. -/

namespace Sys2Proof.Machine

section
variable (s : State)

/-! ### `goIdle` -/

@[simp] theorem goIdle_channel : (goIdle s).channel = s.channel := rfl
@[simp] theorem goIdle_idxStatus : (goIdle s).idxStatus = s.idxStatus := rfl
@[simp] theorem goIdle_idx : (goIdle s).idx = s.idx := rfl
@[simp] theorem goIdle_dcValid : (goIdle s).dcValid = s.dcValid := rfl
@[simp] theorem goIdle_dc : (goIdle s).dc = s.dc := rfl
@[simp] theorem goIdle_status : (goIdle s).status = s.status := rfl
@[simp] theorem goIdle_irqEn : (goIdle s).irqEn = s.irqEn := rfl
@[simp] theorem goIdle_errInfo : (goIdle s).errInfo = s.errInfo := rfl
@[simp] theorem goIdle_pmArg : (goIdle s).pmArg = s.pmArg := rfl
@[simp] theorem goIdle_pmLag : (goIdle s).pmLag = s.pmLag := rfl
@[simp] theorem goIdle_seq : (goIdle s).seq = .idle := rfl
@[simp] theorem goIdle_agenda : (goIdle s).agenda = s.agenda := rfl
@[simp] theorem goIdle_busReply : (goIdle s).busReply = s.busReply := rfl

/-! ### `setDone` -/

@[simp] theorem setDone_channel : (setDone s).channel = s.channel := rfl
@[simp] theorem setDone_idxStatus : (setDone s).idxStatus = s.idxStatus := rfl
@[simp] theorem setDone_idx : (setDone s).idx = s.idx := rfl
@[simp] theorem setDone_dcValid : (setDone s).dcValid = s.dcValid := rfl
@[simp] theorem setDone_dc : (setDone s).dc = s.dc := rfl
@[simp] theorem setDone_status : (setDone s).status = { s.status with done := true } := rfl
@[simp] theorem setDone_irqEn : (setDone s).irqEn = s.irqEn := rfl
@[simp] theorem setDone_errInfo : (setDone s).errInfo = s.errInfo := rfl
@[simp] theorem setDone_pmArg : (setDone s).pmArg = s.pmArg := rfl
@[simp] theorem setDone_pmLag : (setDone s).pmLag = s.pmLag := rfl
@[simp] theorem setDone_seq : (setDone s).seq = s.seq := rfl
@[simp] theorem setDone_agenda : (setDone s).agenda = s.agenda := rfl
@[simp] theorem setDone_busReply : (setDone s).busReply = s.busReply := rfl

/-! ### `recordError` -/

@[simp] theorem recordError_channel (c : ErrorCause) (op : BitVec 4) (tid : Tid) (val : Byte) :
    (recordError c op tid val s).channel = s.channel := rfl
@[simp] theorem recordError_idxStatus (c : ErrorCause) (op : BitVec 4) (tid : Tid) (val : Byte) :
    (recordError c op tid val s).idxStatus = s.idxStatus := rfl
@[simp] theorem recordError_idx (c : ErrorCause) (op : BitVec 4) (tid : Tid) (val : Byte) :
    (recordError c op tid val s).idx = s.idx := rfl
@[simp] theorem recordError_dcValid (c : ErrorCause) (op : BitVec 4) (tid : Tid) (val : Byte) :
    (recordError c op tid val s).dcValid = s.dcValid := rfl
@[simp] theorem recordError_dc (c : ErrorCause) (op : BitVec 4) (tid : Tid) (val : Byte) :
    (recordError c op tid val s).dc = s.dc := rfl
@[simp] theorem recordError_status (c : ErrorCause) (op : BitVec 4) (tid : Tid) (val : Byte) :
    (recordError c op tid val s).status = s.status.setError c := rfl
@[simp] theorem recordError_irqEn (c : ErrorCause) (op : BitVec 4) (tid : Tid) (val : Byte) :
    (recordError c op tid val s).irqEn = s.irqEn := rfl
@[simp] theorem recordError_errInfo (c : ErrorCause) (op : BitVec 4) (tid : Tid) (val : Byte) :
    (recordError c op tid val s).errInfo = if s.errInfo.code = 0 then { code := c.code, op := op, tid := tid, symval := val } else s.errInfo := rfl
@[simp] theorem recordError_pmArg (c : ErrorCause) (op : BitVec 4) (tid : Tid) (val : Byte) :
    (recordError c op tid val s).pmArg = s.pmArg := rfl
@[simp] theorem recordError_pmLag (c : ErrorCause) (op : BitVec 4) (tid : Tid) (val : Byte) :
    (recordError c op tid val s).pmLag = s.pmLag := rfl
@[simp] theorem recordError_seq (c : ErrorCause) (op : BitVec 4) (tid : Tid) (val : Byte) :
    (recordError c op tid val s).seq = s.seq := rfl
@[simp] theorem recordError_agenda (c : ErrorCause) (op : BitVec 4) (tid : Tid) (val : Byte) :
    (recordError c op tid val s).agenda = s.agenda := rfl
@[simp] theorem recordError_busReply (c : ErrorCause) (op : BitVec 4) (tid : Tid) (val : Byte) :
    (recordError c op tid val s).busReply = s.busReply := rfl

/-! ### `endCommandWithError` -/

@[simp] theorem endCommandWithError_channel (c : ErrorCause) (op : BitVec 4) (tid : Tid) (val : Byte) :
    (endCommandWithError c op tid val s).channel = s.channel := rfl
@[simp] theorem endCommandWithError_idxStatus (c : ErrorCause) (op : BitVec 4) (tid : Tid) (val : Byte) :
    (endCommandWithError c op tid val s).idxStatus = s.idxStatus := rfl
@[simp] theorem endCommandWithError_idx (c : ErrorCause) (op : BitVec 4) (tid : Tid) (val : Byte) :
    (endCommandWithError c op tid val s).idx = s.idx := rfl
@[simp] theorem endCommandWithError_dcValid (c : ErrorCause) (op : BitVec 4) (tid : Tid) (val : Byte) :
    (endCommandWithError c op tid val s).dcValid = s.dcValid := rfl
@[simp] theorem endCommandWithError_dc (c : ErrorCause) (op : BitVec 4) (tid : Tid) (val : Byte) :
    (endCommandWithError c op tid val s).dc = s.dc := rfl
@[simp] theorem endCommandWithError_status (c : ErrorCause) (op : BitVec 4) (tid : Tid) (val : Byte) :
    (endCommandWithError c op tid val s).status = { s.status.setError c with done := true } := rfl
@[simp] theorem endCommandWithError_irqEn (c : ErrorCause) (op : BitVec 4) (tid : Tid) (val : Byte) :
    (endCommandWithError c op tid val s).irqEn = s.irqEn := rfl
@[simp] theorem endCommandWithError_errInfo (c : ErrorCause) (op : BitVec 4) (tid : Tid) (val : Byte) :
    (endCommandWithError c op tid val s).errInfo = if s.errInfo.code = 0 then { code := c.code, op := op, tid := tid, symval := val } else s.errInfo := rfl
@[simp] theorem endCommandWithError_pmArg (c : ErrorCause) (op : BitVec 4) (tid : Tid) (val : Byte) :
    (endCommandWithError c op tid val s).pmArg = s.pmArg := rfl
@[simp] theorem endCommandWithError_pmLag (c : ErrorCause) (op : BitVec 4) (tid : Tid) (val : Byte) :
    (endCommandWithError c op tid val s).pmLag = s.pmLag := rfl
@[simp] theorem endCommandWithError_seq (c : ErrorCause) (op : BitVec 4) (tid : Tid) (val : Byte) :
    (endCommandWithError c op tid val s).seq = .idle := rfl
@[simp] theorem endCommandWithError_agenda (c : ErrorCause) (op : BitVec 4) (tid : Tid) (val : Byte) :
    (endCommandWithError c op tid val s).agenda = s.agenda := rfl
@[simp] theorem endCommandWithError_busReply (c : ErrorCause) (op : BitVec 4) (tid : Tid) (val : Byte) :
    (endCommandWithError c op tid val s).busReply = s.busReply := rfl

/-! ### `clearStatus` -/

@[simp] theorem clearStatus_channel (w : Word) : (clearStatus w s).channel = s.channel := rfl
@[simp] theorem clearStatus_idxStatus (w : Word) : (clearStatus w s).idxStatus = s.idxStatus := rfl
@[simp] theorem clearStatus_idx (w : Word) : (clearStatus w s).idx = s.idx := rfl
@[simp] theorem clearStatus_dcValid (w : Word) : (clearStatus w s).dcValid = s.dcValid := rfl
@[simp] theorem clearStatus_dc (w : Word) : (clearStatus w s).dc = s.dc := rfl
@[simp] theorem clearStatus_status (w : Word) : (clearStatus w s).status = s.status.clearBits w := rfl
@[simp] theorem clearStatus_irqEn (w : Word) : (clearStatus w s).irqEn = s.irqEn := rfl
@[simp] theorem clearStatus_errInfo (w : Word) :
    (clearStatus w s).errInfo = if (s.status.clearBits w).anyError then s.errInfo else ErrInfo.none := rfl
@[simp] theorem clearStatus_pmArg (w : Word) : (clearStatus w s).pmArg = s.pmArg := rfl
@[simp] theorem clearStatus_pmLag (w : Word) : (clearStatus w s).pmLag = s.pmLag := rfl
@[simp] theorem clearStatus_seq (w : Word) : (clearStatus w s).seq = s.seq := rfl
@[simp] theorem clearStatus_agenda (w : Word) : (clearStatus w s).agenda = s.agenda := rfl
@[simp] theorem clearStatus_busReply (w : Word) : (clearStatus w s).busReply = s.busReply := rfl

/-! ### `resetChannel` -/

@[simp] theorem resetChannel_channel : (resetChannel s).channel = Channel.reset := rfl
@[simp] theorem resetChannel_idxStatus :
    (resetChannel s).idxStatus = { valid := false, mode := 0, vad := false } := rfl
@[simp] theorem resetChannel_idx : (resetChannel s).idx = IndexBank.reset := rfl
@[simp] theorem resetChannel_dcValid : (resetChannel s).dcValid = false := rfl
@[simp] theorem resetChannel_dc : (resetChannel s).dc = ControlBank.reset := rfl
@[simp] theorem resetChannel_status : (resetChannel s).status = s.status := rfl
@[simp] theorem resetChannel_irqEn : (resetChannel s).irqEn = s.irqEn := rfl
@[simp] theorem resetChannel_errInfo : (resetChannel s).errInfo = s.errInfo := rfl
@[simp] theorem resetChannel_pmArg : (resetChannel s).pmArg = s.pmArg := rfl
@[simp] theorem resetChannel_pmLag : (resetChannel s).pmLag = s.pmLag := rfl
@[simp] theorem resetChannel_seq : (resetChannel s).seq = s.seq := rfl
@[simp] theorem resetChannel_agenda : (resetChannel s).agenda = s.agenda := rfl
@[simp] theorem resetChannel_busReply : (resetChannel s).busReply = s.busReply := rfl

/-! ### `powerOnReset` -/

@[simp] theorem powerOnReset_channel : (powerOnReset s).channel = State.reset.channel := rfl
@[simp] theorem powerOnReset_idxStatus : (powerOnReset s).idxStatus = State.reset.idxStatus := rfl
@[simp] theorem powerOnReset_idx : (powerOnReset s).idx = State.reset.idx := rfl
@[simp] theorem powerOnReset_dcValid : (powerOnReset s).dcValid = State.reset.dcValid := rfl
@[simp] theorem powerOnReset_dc : (powerOnReset s).dc = State.reset.dc := rfl
@[simp] theorem powerOnReset_status : (powerOnReset s).status = State.reset.status := rfl
@[simp] theorem powerOnReset_irqEn : (powerOnReset s).irqEn = State.reset.irqEn := rfl
@[simp] theorem powerOnReset_errInfo : (powerOnReset s).errInfo = State.reset.errInfo := rfl
@[simp] theorem powerOnReset_pmArg : (powerOnReset s).pmArg = State.reset.pmArg := rfl
@[simp] theorem powerOnReset_pmLag : (powerOnReset s).pmLag = State.reset.pmLag := rfl
@[simp] theorem powerOnReset_seq : (powerOnReset s).seq = State.reset.seq := rfl
@[simp] theorem powerOnReset_agenda : (powerOnReset s).agenda = s.agenda := rfl
@[simp] theorem powerOnReset_busReply : (powerOnReset s).busReply = State.reset.busReply := rfl

/-! ### `commitIndices` -/

@[simp] theorem commitIndices_channel (mode : BitVec 2) (vad : Bool) (st : Staged) :
    (commitIndices mode vad st s).channel = { s.channel with prevLagIndex := st.prevLagIndex, prevSignalType := st.prevSignalType } := rfl
@[simp] theorem commitIndices_idxStatus (mode : BitVec 2) (vad : Bool) (st : Staged) :
    (commitIndices mode vad st s).idxStatus = { valid := true, mode := mode, vad := vad } := rfl
@[simp] theorem commitIndices_idx (mode : BitVec 2) (vad : Bool) (st : Staged) :
    (commitIndices mode vad st s).idx = st.bank := rfl
@[simp] theorem commitIndices_dcValid (mode : BitVec 2) (vad : Bool) (st : Staged) :
    (commitIndices mode vad st s).dcValid = s.dcValid := rfl
@[simp] theorem commitIndices_dc (mode : BitVec 2) (vad : Bool) (st : Staged) :
    (commitIndices mode vad st s).dc = s.dc := rfl
@[simp] theorem commitIndices_status (mode : BitVec 2) (vad : Bool) (st : Staged) :
    (commitIndices mode vad st s).status = s.status := rfl
@[simp] theorem commitIndices_irqEn (mode : BitVec 2) (vad : Bool) (st : Staged) :
    (commitIndices mode vad st s).irqEn = s.irqEn := rfl
@[simp] theorem commitIndices_errInfo (mode : BitVec 2) (vad : Bool) (st : Staged) :
    (commitIndices mode vad st s).errInfo = s.errInfo := rfl
@[simp] theorem commitIndices_pmArg (mode : BitVec 2) (vad : Bool) (st : Staged) :
    (commitIndices mode vad st s).pmArg = s.pmArg := rfl
@[simp] theorem commitIndices_pmLag (mode : BitVec 2) (vad : Bool) (st : Staged) :
    (commitIndices mode vad st s).pmLag = s.pmLag := rfl
@[simp] theorem commitIndices_seq (mode : BitVec 2) (vad : Bool) (st : Staged) :
    (commitIndices mode vad st s).seq = s.seq := rfl
@[simp] theorem commitIndices_agenda (mode : BitVec 2) (vad : Bool) (st : Staged) :
    (commitIndices mode vad st s).agenda = s.agenda := rfl
@[simp] theorem commitIndices_busReply (mode : BitVec 2) (vad : Bool) (st : Staged) :
    (commitIndices mode vad st s).busReply = s.busReply := rfl

/-! ### `commitRecon` -/

@[simp] theorem commitRecon_channel (r : ReconResult) :
    (commitRecon r s).channel = { s.channel with
      lastGainIndex := r.lastGainIndex, prevNlsf := r.prevNlsf, firstFrame := false, lossCnt := 0 } := rfl
@[simp] theorem commitRecon_idxStatus (r : ReconResult) :
    (commitRecon r s).idxStatus = { s.idxStatus with valid := false } := rfl
@[simp] theorem commitRecon_idx (r : ReconResult) :
    (commitRecon r s).idx = { s.idx with nlsfInterpCoef := r.nlsfInterpCoef, perIndex := r.perIndex } := rfl
@[simp] theorem commitRecon_dcValid (r : ReconResult) : (commitRecon r s).dcValid = true := rfl
@[simp] theorem commitRecon_dc (r : ReconResult) : (commitRecon r s).dc = r.bank := rfl
@[simp] theorem commitRecon_status (r : ReconResult) : (commitRecon r s).status = s.status := rfl
@[simp] theorem commitRecon_irqEn (r : ReconResult) : (commitRecon r s).irqEn = s.irqEn := rfl
@[simp] theorem commitRecon_errInfo (r : ReconResult) : (commitRecon r s).errInfo = s.errInfo := rfl
@[simp] theorem commitRecon_pmArg (r : ReconResult) : (commitRecon r s).pmArg = s.pmArg := rfl
@[simp] theorem commitRecon_pmLag (r : ReconResult) : (commitRecon r s).pmLag = s.pmLag := rfl
@[simp] theorem commitRecon_seq (r : ReconResult) : (commitRecon r s).seq = s.seq := rfl
@[simp] theorem commitRecon_agenda (r : ReconResult) : (commitRecon r s).agenda = s.agenda := rfl
@[simp] theorem commitRecon_busReply (r : ReconResult) : (commitRecon r s).busReply = s.busReply := rfl

/-! ### `writeCtrl` -/

@[simp] theorem writeCtrl_channel (w : Word) : (writeCtrl w s).channel = s.channel := rfl
@[simp] theorem writeCtrl_idxStatus (w : Word) : (writeCtrl w s).idxStatus = s.idxStatus := rfl
@[simp] theorem writeCtrl_idx (w : Word) : (writeCtrl w s).idx = s.idx := rfl
@[simp] theorem writeCtrl_dcValid (w : Word) : (writeCtrl w s).dcValid = s.dcValid := rfl
@[simp] theorem writeCtrl_dc (w : Word) : (writeCtrl w s).dc = s.dc := rfl
@[simp] theorem writeCtrl_status (w : Word) : (writeCtrl w s).status = s.status := rfl
@[simp] theorem writeCtrl_irqEn (w : Word) : (writeCtrl w s).irqEn = w.getLsbD 0 := rfl
@[simp] theorem writeCtrl_errInfo (w : Word) : (writeCtrl w s).errInfo = s.errInfo := rfl
@[simp] theorem writeCtrl_pmArg (w : Word) : (writeCtrl w s).pmArg = s.pmArg := rfl
@[simp] theorem writeCtrl_pmLag (w : Word) : (writeCtrl w s).pmLag = s.pmLag := rfl
@[simp] theorem writeCtrl_seq (w : Word) : (writeCtrl w s).seq = s.seq := rfl
@[simp] theorem writeCtrl_agenda (w : Word) : (writeCtrl w s).agenda = s.agenda := rfl
@[simp] theorem writeCtrl_busReply (w : Word) : (writeCtrl w s).busReply = s.busReply := rfl

/-! ### `writePmArg` -/

@[simp] theorem writePmArg_channel (w : Word) : (writePmArg w s).channel = s.channel := rfl
@[simp] theorem writePmArg_idxStatus (w : Word) : (writePmArg w s).idxStatus = s.idxStatus := rfl
@[simp] theorem writePmArg_idx (w : Word) : (writePmArg w s).idx = s.idx := rfl
@[simp] theorem writePmArg_dcValid (w : Word) : (writePmArg w s).dcValid = s.dcValid := rfl
@[simp] theorem writePmArg_dc (w : Word) : (writePmArg w s).dc = s.dc := rfl
@[simp] theorem writePmArg_status (w : Word) : (writePmArg w s).status = s.status := rfl
@[simp] theorem writePmArg_irqEn (w : Word) : (writePmArg w s).irqEn = s.irqEn := rfl
@[simp] theorem writePmArg_errInfo (w : Word) : (writePmArg w s).errInfo = s.errInfo := rfl
@[simp] theorem writePmArg_pmArg (w : Word) : (writePmArg w s).pmArg = w := rfl
@[simp] theorem writePmArg_pmLag (w : Word) : (writePmArg w s).pmLag = s.pmLag := rfl
@[simp] theorem writePmArg_seq (w : Word) : (writePmArg w s).seq = s.seq := rfl
@[simp] theorem writePmArg_agenda (w : Word) : (writePmArg w s).agenda = s.agenda := rfl
@[simp] theorem writePmArg_busReply (w : Word) : (writePmArg w s).busReply = s.busReply := rfl

/-! ### `setReply` -/

@[simp] theorem setReply_channel (r : BusReply) : (setReply r s).channel = s.channel := rfl
@[simp] theorem setReply_idxStatus (r : BusReply) : (setReply r s).idxStatus = s.idxStatus := rfl
@[simp] theorem setReply_idx (r : BusReply) : (setReply r s).idx = s.idx := rfl
@[simp] theorem setReply_dcValid (r : BusReply) : (setReply r s).dcValid = s.dcValid := rfl
@[simp] theorem setReply_dc (r : BusReply) : (setReply r s).dc = s.dc := rfl
@[simp] theorem setReply_status (r : BusReply) : (setReply r s).status = s.status := rfl
@[simp] theorem setReply_irqEn (r : BusReply) : (setReply r s).irqEn = s.irqEn := rfl
@[simp] theorem setReply_errInfo (r : BusReply) : (setReply r s).errInfo = s.errInfo := rfl
@[simp] theorem setReply_pmArg (r : BusReply) : (setReply r s).pmArg = s.pmArg := rfl
@[simp] theorem setReply_pmLag (r : BusReply) : (setReply r s).pmLag = s.pmLag := rfl
@[simp] theorem setReply_seq (r : BusReply) : (setReply r s).seq = s.seq := rfl
@[simp] theorem setReply_agenda (r : BusReply) : (setReply r s).agenda = s.agenda := rfl
@[simp] theorem setReply_busReply (r : BusReply) : (setReply r s).busReply = some r := rfl

/-! ### `setAgenda` -/

@[simp] theorem setAgenda_channel (es : List Event) : (setAgenda es s).channel = s.channel := rfl
@[simp] theorem setAgenda_idxStatus (es : List Event) : (setAgenda es s).idxStatus = s.idxStatus := rfl
@[simp] theorem setAgenda_idx (es : List Event) : (setAgenda es s).idx = s.idx := rfl
@[simp] theorem setAgenda_dcValid (es : List Event) : (setAgenda es s).dcValid = s.dcValid := rfl
@[simp] theorem setAgenda_dc (es : List Event) : (setAgenda es s).dc = s.dc := rfl
@[simp] theorem setAgenda_status (es : List Event) : (setAgenda es s).status = s.status := rfl
@[simp] theorem setAgenda_irqEn (es : List Event) : (setAgenda es s).irqEn = s.irqEn := rfl
@[simp] theorem setAgenda_errInfo (es : List Event) : (setAgenda es s).errInfo = s.errInfo := rfl
@[simp] theorem setAgenda_pmArg (es : List Event) : (setAgenda es s).pmArg = s.pmArg := rfl
@[simp] theorem setAgenda_pmLag (es : List Event) : (setAgenda es s).pmLag = s.pmLag := rfl
@[simp] theorem setAgenda_seq (es : List Event) : (setAgenda es s).seq = s.seq := rfl
@[simp] theorem setAgenda_agenda (es : List Event) : (setAgenda es s).agenda = es := rfl
@[simp] theorem setAgenda_busReply (es : List Event) : (setAgenda es s).busReply = s.busReply := rfl

/-! ### `afterWrite` -/

@[simp] theorem afterWrite_channel (es : List Event) : (afterWrite es s).channel = s.channel := rfl
@[simp] theorem afterWrite_idxStatus (es : List Event) : (afterWrite es s).idxStatus = s.idxStatus := rfl
@[simp] theorem afterWrite_idx (es : List Event) : (afterWrite es s).idx = s.idx := rfl
@[simp] theorem afterWrite_dcValid (es : List Event) : (afterWrite es s).dcValid = s.dcValid := rfl
@[simp] theorem afterWrite_dc (es : List Event) : (afterWrite es s).dc = s.dc := rfl
@[simp] theorem afterWrite_status (es : List Event) : (afterWrite es s).status = s.status := rfl
@[simp] theorem afterWrite_irqEn (es : List Event) : (afterWrite es s).irqEn = s.irqEn := rfl
@[simp] theorem afterWrite_errInfo (es : List Event) : (afterWrite es s).errInfo = s.errInfo := rfl
@[simp] theorem afterWrite_pmArg (es : List Event) : (afterWrite es s).pmArg = s.pmArg := rfl
@[simp] theorem afterWrite_pmLag (es : List Event) : (afterWrite es s).pmLag = s.pmLag := rfl
@[simp] theorem afterWrite_seq (es : List Event) : (afterWrite es s).seq = s.seq := rfl
@[simp] theorem afterWrite_agenda (es : List Event) : (afterWrite es s).agenda = es := rfl
@[simp] theorem afterWrite_busReply (es : List Event) : (afterWrite es s).busReply = some writeReply := rfl

end

end Sys2Proof.Machine
end

