-- ==== Sys2Proof/Laws/Ops.lean ====
section
/-! SUPPORT. For each shared operation, once, everything it can do. -/

namespace Sys2Proof.Machine

theorem busy_eq_false_iff (s : State) : s.busy = false ↔ s.seq = .idle := by
  cases h : s.seq <;> simp [State.busy, h]

theorem busy_of_running {s : State} {r : Run} (h : s.seq = .running r) : s.busy = true := by
  simp [State.busy, h]

theorem runningOp_of_running {s : State} {r : Run} (h : s.seq = .running r) : s.runningOp = r.op.code := by
  simp [State.runningOp, h]

/-- `IssueCommand` while BUSY: the command is refused (R245). -/
theorem issue_busy {op check run} {s : State} (h : s.busy = true) :
    issue op check run s = recordError .busy op 0 0 s := by
  simp [issue, h]

/-- `IssueCommand` when a check fails: the command ends with that error (R85). -/
theorem issue_error {op check run c} {s : State} (h : s.seq = .idle) (hc : check s = some c) :
    issue op check run s = endCommandWithError c op 0 0 s := by
  simp [issue, (busy_eq_false_iff s).2 h, hc]

/-- `IssueCommand` when every check passes (R85). -/
theorem issue_run {op check run} {s : State} (h : s.seq = .idle) (hc : check s = none) :
    issue op check run s = run s := by
  simp [issue, (busy_eq_false_iff s).2 h, hc]

/-- Everything `IssueCommand` can do (R85). -/
theorem issue_cases (op : BitVec 4) (check : State → Option ErrorCause) (run : State → State) (s : State) :
    (s.busy = true ∧ issue op check run s = recordError .busy op 0 0 s) ∨
    (s.seq = .idle ∧ ∃ c, check s = some c ∧ issue op check run s = endCommandWithError c op 0 0 s) ∨
    (s.seq = .idle ∧ check s = none ∧ issue op check run s = run s) := by
  by_cases hb : s.busy = true
  · exact .inl ⟨hb, issue_busy hb⟩
  · have hi : s.seq = .idle := (busy_eq_false_iff s).1 (by simpa using hb)
    cases hc : check s with
    | none => exact .inr (.inr ⟨hi, rfl, issue_run hi hc⟩)
    | some c => exact .inr (.inl ⟨hi, c, rfl, issue_error hi hc⟩)

/-- The opcode, the checks and the effect with which `exec` issues a command. -/
theorem exec_eq_issue (i : Instr) (s : State) :
    exec i s = .next (match i with
      | .nop => issue 0 checkNothing setDone s
      | .reset => issue 1 checkNothing runReset s
      | .decidx mode vad => issue 2 (checkModeAndConfig mode) (startRun .decidx mode vad) s
      | .recon => issue 3 checkRecon (runRecon Config.rom) s
      | .decfrm mode vad => issue 4 (checkModeAndConfig mode) (startRun .decfrm mode vad) s
      | .pitchmap => issue 5 checkPitchmap runPitchmap s) := by
  cases i <;> rfl

theorem checkModeAndConfig_eq_none {mode : BitVec 2} {s : State} :
    checkModeAndConfig mode s = none ↔ mode ≠ 3 ∧ s.channel.cfgOk = true := by
  unfold checkModeAndConfig
  split <;> simp_all

theorem checkRecon_eq_none {s : State} :
    checkRecon s = none ↔ s.channel.cfgOk = true ∧ s.idxStatus.valid = true := by
  unfold checkRecon
  split <;> simp_all

/-- RECON with a legal configuration and a valid bank runs (R85, R150). -/
theorem exec_recon_of_ready {s : State} (hi : s.seq = .idle) (hc : s.channel.cfgOk = true)
    (hv : s.idxStatus.valid = true) : exec .recon s = .next (runRecon Config.rom s) := by
  rw [exec_eq_issue]
  exact congrArg _ (issue_run hi (checkRecon_eq_none.2 ⟨hc, hv⟩))

/-- The legal configurations (R29). -/
theorem cfgOk_cases {c : Channel} (h : c.cfgOk = true) :
    (c.fsKhz = 8 ∨ c.fsKhz = 12 ∨ c.fsKhz = 16) ∧ (c.nbSubfr = 2 ∨ c.nbSubfr = 4) := by
  unfold Channel.cfgOk at h
  generalize c.fsKhz = f at *
  generalize c.nbSubfr = n at *
  revert f n
  decide

/-- Under a legal configuration the order is that of the codebook (R30). -/
theorem lpcOrder_eq_codebookOrder {c : Channel} (h : c.cfgOk = true) :
    lpcOrder c.fsKhz.toNat = codebookOrder (codebookOf c.fsKhz.toNat) := by
  rcases (cfgOk_cases h).1 with h | h | h <;> rw [h] <;> rfl

theorem checkPitchmap_eq_none {s : State} : checkPitchmap s = none ↔ pmLegal s.pmArg = true := by
  unfold checkPitchmap
  split <;> simp_all

theorem writeCfg_running {s : State} {r : Run} (w : Word) (h : s.seq = .running r) :
    writeCfg w s = recordError .busy r.op.code 0 0 s := by
  simp [writeCfg, busy_of_running h, runningOp_of_running h]

theorem writeCfg_idle {s : State} (w : Word) (h : s.seq = .idle) :
    writeCfg w s = { s with
      channel := { s.channel with fsKhz := w.extractLsb' 0 5, nbSubfr := w.extractLsb' 8 3 }
      idxStatus := { s.idxStatus with valid := false } } := by
  simp [writeCfg, (busy_eq_false_iff s).2 h]

theorem writeLossCnt_running {s : State} {r : Run} (w : Word) (h : s.seq = .running r) :
    writeLossCnt w s = recordError .busy r.op.code 0 0 s := by
  simp [writeLossCnt, busy_of_running h, runningOp_of_running h]

theorem writeLossCnt_idle {s : State} (w : Word) (h : s.seq = .idle) :
    writeLossCnt w s = { s with channel := { s.channel with lossCnt := w } } := by
  simp [writeLossCnt, (busy_eq_false_iff s).2 h]

/-- Everything the Symbol Decoder's turn can do (R92). -/
theorem answerRequest_eq_next {v : Byte} {s t : State} :
    answerRequest v s = .next t ↔
      ∃ r, s.seq = .running r ∧ r.response = none ∧ t = { s with seq := .running { r with response := some v } } := by
  unfold answerRequest
  constructor
  · intro h
    split at h
    · cases h
    · next r hr =>
      split at h
      · cases h
      · next hn => exact ⟨r, hr, hn, by cases h; rfl⟩
  · rintro ⟨r, hr, hn, rfl⟩
    simp [hr, hn]

/-- Everything the block's turn can do. -/
theorem blockTurn_cases (rom : Rom) (s : State) :
    (blockTurn rom s = s ∧ ∀ r v, s.seq = .running r → r.response ≠ some v) ∨
    (∃ r v, s.seq = .running r ∧ r.response = some v ∧ blockTurn rom s = acceptResponse rom r v s) := by
  unfold blockTurn
  split
  · next h => exact .inl ⟨rfl, by simp [h]⟩
  · next r hr =>
    split
    · next hn => exact .inl ⟨rfl, by rintro r' v hr'; rw [hr] at hr'; cases hr'; simp [hn]⟩
    · next v hv => exact .inr ⟨r, v, hr, hv, rfl⟩

/-- Everything the acceptance of a response can do (R14, R134). -/
theorem acceptResponse_cases (rom : Rom) (r : Run) (v : Byte) (s : State) :
    (alphabet r.pending ≤ (v.toNat : Int) ∧
      acceptResponse rom r v s = endCommandWithError .symbol r.op.code r.pending v s) ∨
    ((v.toNat : Int) < alphabet r.pending ∧
      acceptResponse rom r v s =
        proceed rom r s (absorb (frameContext r.mode r.vad s.channel) v r.staged r.step)) := by
  unfold acceptResponse
  split
  · exact .inl ⟨by assumption, rfl⟩
  · exact .inr ⟨by omega, rfl⟩

/-- One step of the machine: it waits, or the next agent on the agenda moves. -/
theorem step_eq_next {s t : State} :
    step s = .next t ↔
      (s.agenda = [] ∧ t = s) ∨ ∃ e es, s.agenda = e :: es ∧ agentStep e (setAgenda es s) = .next t := by
  unfold step runAgenda
  cases h : s.agenda with
  | nil => simp [eq_comm]
  | cons e es => simp

theorem step_cons {s : State} {e : Event} {es : List Event} (h : s.agenda = e :: es) :
    step s = agentStep e (setAgenda es s) := by
  simp [step, runAgenda, h]

end Sys2Proof.Machine
end

