-- ==== Sys2Proof/Laws/PerInstr.lean ====
section
/-! SUPPORT. Statements about every command as syntax, made command by command. -/

namespace Sys2Proof.Laws

/-- A well-formed command's word is legal by R84 and names the command's opcode. -/
def EncodeLegal.Statement (i : Instr) : Prop :=
  i.wellFormed = true → legalWord (encode i) = true ∧ opField (encode i) = i.opcode

theorem EncodeLegal.nop : EncodeLegal.Statement .nop := by intro _; decide

theorem EncodeLegal.reset : EncodeLegal.Statement .reset := by intro _; decide

theorem EncodeLegal.decidx (mode : BitVec 2) (vad : Bool) : EncodeLegal.Statement (.decidx mode vad) := by
  revert mode vad
  unfold EncodeLegal.Statement
  decide

theorem EncodeLegal.recon : EncodeLegal.Statement .recon := by intro _; decide

theorem EncodeLegal.decfrm (mode : BitVec 2) (vad : Bool) : EncodeLegal.Statement (.decfrm mode vad) := by
  revert mode vad
  unfold EncodeLegal.Statement
  decide

theorem EncodeLegal.pitchmap : EncodeLegal.Statement .pitchmap := by intro _; decide

end Sys2Proof.Laws
end

