-- ==== Sys2Proof/Laws/Step.lean ====
section
/-! SUPPORT. Invariance along a step, once: a property that every shared operation keeps is kept by every step. -/

namespace Sys2Proof.Machine

/-- What a property has to survive to be kept by every step. -/
structure KeptByOps (P : State → Prop) : Prop where
  agenda : ∀ es s, P s → P (setAgenda es s)
  reply : ∀ r s, P s → P (setReply r s)
  done : ∀ s, P s → P (setDone s)
  record : ∀ c op s, (c = .bus → op = 0) → c ≠ .symbol → P s → P (recordError c op 0 0 s)
  abort : ∀ r v s, s.seq = .running r → P s → P (endCommandWithError .symbol r.op.code r.pending v s)
  clear : ∀ w s, P s → P (clearStatus w s)
  cfg : ∀ w s, P s → P (writeCfg w s)
  lossCnt : ∀ w s, P s → P (writeLossCnt w s)
  ctrl : ∀ w s, P s → P (writeCtrl w s)
  pmArg : ∀ w s, P s → P (writePmArg w s)
  channelReset : ∀ s, s.seq = .idle → P s → P (resetChannel s)
  start : ∀ op mode vad s, s.seq = .idle → mode ≠ 3 → s.channel.cfgOk = true → P s → P (startRun op mode vad s)
  recon : ∀ s, s.seq = .idle → s.channel.cfgOk = true → s.idxStatus.valid = true → P s →
    P (reconstruct Config.rom s)
  pitchmap : ∀ s, P s → P { s with pmLag := pitchMapResult s.pmArg }
  answer : ∀ r v s, s.seq = .running r → P s → P { s with seq := .running { r with response := some v } }
  accept : ∀ r v s, s.seq = .running r → r.response = some v → (v.toNat : Int) < alphabet r.pending → P s →
    P (proceed Config.rom r s (absorb (frameContext r.mode r.vad s.channel) v r.staged r.step))
  powerOn : ∀ s, P s → P (powerOnReset s)

theorem goIdle_of_idle {s : State} (h : s.seq = .idle) : goIdle s = s := by
  cases s; simp_all [goIdle]

theorem endCommandWithError_of_idle {s : State} (h : s.seq = .idle) (c op tid val) :
    endCommandWithError c op tid val s = setDone (recordError c op tid val s) := by
  simp [endCommandWithError, goIdle_of_idle h]

/-- A property kept by a command's effect survives its issue: the other outcomes only record an error. -/
theorem KeptByOps.issue {P : State → Prop} (K : KeptByOps P) {op : BitVec 4} {check run} {s : State} (h : P s)
    (hc : ∀ c, check s = some c → c ≠ .bus ∧ c ≠ .symbol)
    (hr : s.seq = .idle → check s = none → P (run s)) : P (issue op check run s) := by
  rcases issue_cases op check run s with ⟨_, e⟩ | ⟨hi, c, hcs, e⟩ | ⟨hi, hcs, e⟩ <;> rw [e]
  · exact K.record _ _ _ (by simp) (by simp) h
  · rw [endCommandWithError_of_idle hi]
    exact K.done _ (K.record _ _ _ (fun hb => absurd hb (hc c hcs).1) (hc c hcs).2 h)
  · exact hr hi hcs

theorem KeptByOps.exec {P : State → Prop} (K : KeptByOps P) {i : Instr} {s t : State} (h : P s)
    (he : exec i s = .next t) : P t := by
  rw [exec_eq_issue] at he
  cases he
  cases i with
  | nop => exact K.issue h (by simp [checkNothing]) fun _ _ => K.done _ h
  | reset => exact K.issue h (by simp [checkNothing]) fun hi _ => K.done _ (K.channelReset _ hi h)
  | decidx mode vad =>
    refine K.issue h ?_ fun hi hc => ?_
    · intro c hc; unfold checkModeAndConfig at hc; split at hc
      · cases hc; simp
      · split at hc <;> cases hc; simp
    · obtain ⟨hm, ho⟩ := checkModeAndConfig_eq_none.1 hc
      exact K.start _ _ _ _ hi hm ho h
  | recon =>
    refine K.issue h ?_ fun hi hc => ?_
    · intro c hc; unfold checkRecon at hc; split at hc
      · split at hc <;> cases hc; simp
      · cases hc; simp
    · obtain ⟨ho, hv⟩ := checkRecon_eq_none.1 hc
      exact K.done _ (K.recon _ hi ho hv h)
  | decfrm mode vad =>
    refine K.issue h ?_ fun hi hc => ?_
    · intro c hc; unfold checkModeAndConfig at hc; split at hc
      · cases hc; simp
      · split at hc <;> cases hc; simp
    · obtain ⟨hm, ho⟩ := checkModeAndConfig_eq_none.1 hc
      exact K.start _ _ _ _ hi hm ho h
  | pitchmap =>
    refine K.issue h ?_ fun _ _ => K.done _ (K.pitchmap _ h)
    intro c hc; unfold checkPitchmap at hc; split at hc <;> cases hc; simp

theorem KeptByOps.writeReg {P : State → Prop} (K : KeptByOps P) {r : Reg} {w : Word} {s t : State} (h : P s)
    (he : writeReg r w s = .next t) : P t := by
  unfold Sys2Proof.Machine.writeReg at he
  split at he
  · unfold receiveCommand at he
    split at he
    · exact K.exec h he
    · cases he
      exact K.issue h (by rintro c ⟨⟩; simp) (by simp)
  · cases he; exact K.clear _ _ h
  · cases he; exact K.ctrl _ _ h
  · cases he; exact K.cfg _ _ h
  · cases he; exact K.lossCnt _ _ h
  · cases he; exact K.pmArg _ _ h
  · cases he; exact h

theorem KeptByOps.hostAccess {P : State → Prop} (K : KeptByOps P) {a : BusAccess} {s t : State} (h : P s)
    (he : hostAccess a s = .next t) : P t := by
  unfold Sys2Proof.Machine.hostAccess at he
  split at he
  · split at he <;> cases he
    · exact K.reply _ _ h
    · exact K.record _ _ _ (by simp) (by simp) (K.reply _ _ h)
  · split at he
    · unfold writeWord at he
      split at he
      · exact K.writeReg (K.reply _ _ h) he
      · cases he; exact K.reply _ _ h
    · cases he; exact K.record _ _ _ (by simp) (by simp) (K.reply _ _ h)

theorem KeptByOps.agentStep {P : State → Prop} (K : KeptByOps P) {e : Event} {s t : State} (h : P s)
    (he : agentStep e s = .next t) : P t := by
  cases e with
  | host a => exact K.hostAccess h he
  | respond v =>
    obtain ⟨r, hr, _, rfl⟩ := answerRequest_eq_next.1 he
    exact K.answer _ _ _ hr h
  | block =>
    cases he
    rcases blockTurn_cases Config.rom s with ⟨e, _⟩ | ⟨r, v, hr, hv, e⟩ <;> rw [e]
    · exact h
    · rcases acceptResponse_cases Config.rom r v s with ⟨_, e⟩ | ⟨hlt, e⟩ <;> rw [e]
      · exact K.abort _ _ _ hr h
      · exact K.accept _ _ _ hr hv hlt h
  | powerOn => cases he; exact K.powerOn _ h

/-- A property that the shared operations keep is kept by every step. -/
theorem KeptByOps.step {P : State → Prop} (K : KeptByOps P) {s t : State} (h : P s) (he : step s = .next t) :
    P t := by
  rcases step_eq_next.1 he with ⟨_, rfl⟩ | ⟨e, es, _, he⟩
  · exact h
  · exact K.agentStep (K.agenda _ _ h) he

end Sys2Proof.Machine
end

