-- ==== Sys2Proof/Laws/Words.lean ====
section
/-! SUPPORT. The fields of the words that the model puts together. -/

namespace Sys2Proof.Machine

/-- A field that lies in the low part of a concatenation. -/
theorem extract_append_low (n m start len : Nat) (a : BitVec n) (b : BitVec m) (h : start + len ≤ m) :
    (a ++ b).extractLsb' start len = b.extractLsb' start len := by
  ext i hi
  simp only [BitVec.getElem_extractLsb', BitVec.getLsbD_append]
  rw [if_pos (by omega)]

/-- A field that lies in the high part of a concatenation. -/
theorem extract_append_high (n m start len : Nat) (a : BitVec n) (b : BitVec m) (h : m ≤ start) :
    (a ++ b).extractLsb' start len = a.extractLsb' (start - m) len := by
  ext i hi
  simp only [BitVec.getElem_extractLsb', BitVec.getLsbD_append]
  rw [if_neg (by omega)]
  congr 1
  omega

section pmWord
variable (lag : BitVec 16) (contour : BitVec 6) (fs : BitVec 5) (nsf : BitVec 3)

@[simp] theorem pmLagIndex_pmWord : pmLagIndex (pmWord lag contour fs nsf) = lag.toInt := by
  unfold pmLagIndex pmWord
  rw [extract_append_low (3 + 5 + 2 + 6) 16] <;> simp

@[simp] theorem pmContour_pmWord : pmContour (pmWord lag contour fs nsf) = contour.toNat := by
  unfold pmContour pmWord
  rw [extract_append_high (3 + 5 + 2 + 6) 16, extract_append_low (3 + 5 + 2) 6] <;> simp

@[simp] theorem pmRsvd_pmWord : pmRsvd (pmWord lag contour fs nsf) = 0 := by
  unfold pmRsvd pmWord
  rw [extract_append_high (3 + 5 + 2 + 6) 16, extract_append_high (3 + 5 + 2) 6,
    extract_append_low (3 + 5) 2] <;> simp

@[simp] theorem pmFs_pmWord : pmFs (pmWord lag contour fs nsf) = fs.toNat := by
  unfold pmFs pmWord
  rw [extract_append_high (3 + 5 + 2 + 6) 16, extract_append_high (3 + 5 + 2) 6,
    extract_append_high (3 + 5) 2, extract_append_low 3 5] <;> simp

@[simp] theorem pmNsf_pmWord : pmNsf (pmWord lag contour fs nsf) = nsf.toNat := by
  unfold pmNsf pmWord
  rw [extract_append_high (3 + 5 + 2 + 6) 16, extract_append_high (3 + 5 + 2) 6,
    extract_append_high (3 + 5) 2, extract_append_high 3 5] <;> simp

end pmWord

section bits

theorem bitAt_getLsbD (b : Bool) (n i : Nat) (hn : n < 32) : (bitAt b n).getLsbD i = (decide (i = n) && b) := by
  unfold bitAt
  simp only [BitVec.getLsbD_shiftLeft, BitVec.getLsbD_setWidth, BitVec.getLsbD_ofBool]
  by_cases h : i = n
  · subst h; simp [hn]
  · simp [h]; omega

/-- The bits of `STATUS` as R42 places them. -/
theorem statusWord_getLsbD (st : Status) (busy : Bool) (i : Nat) :
    (st.toWord busy).getLsbD i =
      (if i = 0 then busy else if i = 1 then st.done else if i = 8 then st.errCmd
        else if i = 9 then st.errConfig else if i = 10 then st.errSeq else if i = 11 then st.errSymbol
        else if i = 12 then st.errBusy else if i = 13 then st.errArg else if i = 14 then st.errBus
        else false) := by
  simp only [Status.toWord, BitVec.getLsbD_or]
  rw [bitAt_getLsbD _ _ _ (by decide), bitAt_getLsbD _ _ _ (by decide), bitAt_getLsbD _ _ _ (by decide),
    bitAt_getLsbD _ _ _ (by decide), bitAt_getLsbD _ _ _ (by decide), bitAt_getLsbD _ _ _ (by decide),
    bitAt_getLsbD _ _ _ (by decide), bitAt_getLsbD _ _ _ (by decide), bitAt_getLsbD _ _ _ (by decide)]
  split_ifs <;> simp_all

end bits

end Sys2Proof.Machine
end

