-- ==== Sys2Proof/Tests/Slice0.lean ====
section
/-! SUPPORT. Small tests against values the spec writes out (95_test_vectors.md, or the worked example of the rule
named), and for each statement with hypotheses a concrete state that meets them. -/

namespace Sys2Proof.Tests

open Sys2Proof Sys2Proof.Machine

/-! ### Well-formedness: each check refuses an ill-formed term -/

theorem test_wellFormed_refuses_decidx_mode3 : (Instr.decidx 3 true).wellFormed = false := by decide
theorem test_wellFormed_refuses_decfrm_mode3 : (Instr.decfrm 3 false).wellFormed = false := by decide
theorem test_wellFormed_accepts_decidx_mode2 : (Instr.decidx 2 true).wellFormed = true := by decide
theorem test_wellFormed_accepts_decfrm_mode2 : (Instr.decfrm 2 false).wellFormed = true := by decide

/-! ### Decoding: words written out field by field from R80 and R81 (RSVD, VAD, MODE, OP) -/

theorem test_decode_nop : decode 0b0000000000000000000000000_0_00_0000 = .ok .nop := by decide
theorem test_decode_reset : decode 0b0000000000000000000000000_0_00_0001 = .ok .reset := by decide
/-- V60. -/
theorem test_decode_decidx : decode 0b0000000000000000000000000_1_00_0010 = .ok (.decidx 0 true) := by decide
/-- V62. -/
theorem test_decode_decidx_noltps : decode 0b0000000000000000000000000_0_01_0010 = .ok (.decidx 1 false) := by decide
theorem test_decode_recon : decode 0b0000000000000000000000000_0_00_0011 = .ok .recon := by decide
/-- V61. -/
theorem test_decode_decfrm : decode 0b0000000000000000000000000_1_10_0100 = .ok (.decfrm 2 true) := by decide
theorem test_decode_pitchmap : decode 0b0000000000000000000000000_0_00_0101 = .ok .pitchmap := by decide
/-- V63. -/
theorem test_decode_refuses_mode3 : decode 0b0000000000000000000000000_0_11_0010 = .error .reservedMode := by decide
/-- V64. -/
theorem test_decode_refuses_rsvd : decode 0b0000000000000000000000001_0_00_0011 = .error .reservedBits := by decide
/-- V65. -/
theorem test_decode_refuses_vad_on_recon :
    decode 0b0000000000000000000000000_1_00_0011 = .error .unusedOperand := by decide
/-- R61: the lowest byte lane carries bits 7:0. -/
theorem test_decode_bytes : decodeBytes [0x64, 0x00, 0x00, 0x00, 0xFF] = .ok (.decfrm 2 true, [0xFF]) := by decide
theorem test_decode_table_word : decodeTableWord 32 0x22 = some (.decidx 2 false) := by decide

/-! ### Helpers -/

/-- The state after reset with a configuration. -/
def configured (fs : BitVec 5) (nsf : BitVec 3) : State :=
  { State.reset with channel := { State.reset.channel with fsKhz := fs, nbSubfr := nsf } }

/-- fs 8 and 4 subframes, and a committed bank of signal type `st`. -/
def ready (st : BitVec 2) : State :=
  { configured 8 4 with
    idxStatus := { valid := true, mode := 0, vad := true }
    idx := { State.reset.idx with signalType := st } }

/-- A state with its next events. -/
def soon (es : List Event) (s : State) : State := { s with agenda := es }

/-- The run of a DECIDX.IND.V at a step. -/
def waitingRun (step : SeqStep) (pending : Tid) (response : Option Byte) : Run where
  op := .decidx
  mode := 0
  vad := true
  step := step
  pending := pending
  response := response
  staged := { bank := State.reset.idx, prevLagIndex := 0, prevSignalType := 0 }

/-- fs 8 and 4 subframes, with a running DECIDX.IND.V at a step. -/
def running (step : SeqStep) (pending : Tid) (response : Option Byte) : State :=
  { configured 8 4 with seq := .running (waitingRun step pending response) }

/-- What one step leads to has a property. -/
def stepsTo (s : State) (p : State → Bool) : Bool :=
  match step s with
  | .next t => p t
  | .fault _ => false
  | .refused _ => false

/-- What `k` steps lead to has a property. -/
def runsTo (k : Nat) (s : State) (p : State → Bool) : Bool :=
  match runSteps k s with
  | .next t => p t
  | .fault _ => false
  | .refused _ => false

/-- The test ROM of part T of 95_test_vectors.md. -/
def testRom : Rom where
  cb1Q8 := fun cb v k => BitVec.ofNat 8 ((if cb = .nbmb then 20 else 12) * (k + 1) + v)
  cb1WghtLess1 := fun _ _ _ => 2047
  ecSel := fun _ v j => BitVec.ofNat 8 ((v + 2 * j + 1) % 8 * 32 + (v + j) % 8 * 2 + j % 2)
  predQ8 := fun cb m => if m < codebookOrder cb - 1 then 64 else 128
  ltpVqQ7 := fun p i t => BitVec.ofInt 8 (i - 2 * t + p)
  nlsf2a := fun _ x k => x.getD k 0 >>> 3

/-! ### One command each -/

/-- R220. -/
theorem test_nop : stepsTo (State.reset.withFetchWord 32 0x00)
    (fun t => readWord t 0x008 == 0x00000002 && readWord t 0x018 == 0) = true := by decide
/-- R221, R42: `DONE` is set, the error bits stay, the configuration is gone. -/
theorem test_reset : stepsTo
    ({ configured 8 4 with status := { State.reset.status with errSeq := true } }.withFetchWord 32 0x01)
    (fun t => readWord t 0x008 == 0x00000402 && readWord t 0x010 == 0) = true := by decide
/-- R242's worked example. -/
theorem test_decidx_without_config : stepsTo (State.reset.withFetchWord 32 0x02)
    (fun t => readWord t 0x008 == 0x00000202 && readWord t 0x018 == 0x00000022) = true := by decide
/-- V1 and V8: the first answer gives type 1 and asks for tid 3; 8 is not below its alphabet. -/
theorem test_decidx_symbol_error : runsTo 5
    ((configured 16 4).withFetchWord 32 0x42 |> fun s => soon (s.agenda ++ symbolAgenda [1, 8]) s)
    (fun t => readWord t 0x008 == 0x00000802 && readWord t 0x018 == 0x00080324 && readWord t 0x02C == 0) = true := by
  decide
/-- R243: RECON with no valid bank. -/
theorem test_recon_without_indices : stepsTo ((configured 16 4).withFetchWord 32 0x03)
    (fun t => readWord t 0x008 == 0x00000402 && readWord t 0x018 == 0x00000033) = true := by decide
/-- V15: conditional gains from `LAST_GAIN_INDEX` 63, by one RECON. -/
theorem test_recon_gains : stepsTo
    ({ ready 1 with
        idxStatus := { valid := true, mode := 2, vad := true }
        channel := { (configured 8 4).channel with lastGainIndex := 63 } }.withFetchWord 32 0x03)
    (fun t => readWord t 0x210 == 897581056 && readWord t 0x21C == 135266304 && readWord t 0x024 == 47) = true := by
  decide
/-- R48: DECFRM leaves the block BUSY, with the request for tid 1 out. -/
theorem test_decfrm_starts : stepsTo ((configured 8 4).withFetchWord 32 0x64)
    (fun t => readWord t 0x008 == 0x00000001 &&
      match t.seq with | .running r => r.pending == 1 | .idle => false) = true := by decide
/-- R249: `MODE` 3 is an illegal word before a missing configuration is looked at. -/
theorem test_decfrm_mode3 : stepsTo (State.reset.withFetchWord 32 0x34)
    (fun t => readWord t 0x018 == 0x00000041) = true := by decide
/-- R207: `PitchMap(0, 33, 16, 4)`. -/
theorem test_pitchmap : stepsTo ({ State.reset with pmArg := pmWord 0 33 16 4 }.withFetchWord 32 0x05)
    (fun t => readWord t 0x080 == 32 && readWord t 0x084 == 32 && readWord t 0x088 == 35 && readWord t 0x08C == 41)
    = true := by decide
/-- R246's worked example. -/
theorem test_pitchmap_illegal : stepsTo ({ State.reset with pmArg := pmWord 0 11 8 4 }.withFetchWord 32 0x05)
    (fun t => readWord t 0x008 == 0x00002002 && readWord t 0x018 == 0x00000056) = true := by decide

/-! ### The register window -/

/-- V66: an illegal word's `OP`. -/
theorem test_illegal_word : stepsTo (State.reset.withFetchWord 32 0x0F)
    (fun t => readWord t 0x008 == 0x00000102 && readWord t 0x018 == 0x000000F1) = true := by decide
/-- P1: `CFG` of fs 8 and 4 subframes reads back its derived fields. -/
theorem test_cfg_reads_back : stepsTo (soon [wordWrite 0x010 0x408] State.reset)
    (fun t => readWord t 0x010 == 0x010A0408) = true := by decide
/-- P4's `CFG`; with an illegal subframe count `CFG_OK` and `CB_WB` read 0 (93_implementation_defined.md, part 1). -/
theorem test_cfg_codebook :
    stepsTo (soon [wordWrite 0x010 0x410] State.reset) (fun t => readWord t 0x010 == 0x03100410) = true ∧
    stepsTo (soon [wordWrite 0x010 0x310] State.reset) (fun t => readWord t 0x010 == 0x00100310) = true := by decide
/-- R251's worked example. -/
theorem test_status_clear : runsTo 2
    (soon [wordWrite 0x008 0x200, wordRead 0x008]
      { State.reset with
        status := { State.reset.status with done := true, errConfig := true, errSymbol := true }
        errInfo := { code := 2, op := 2, tid := 0, symval := 0 } })
    (fun t => t.busReply == some { data := some 0x00000802, error := false } &&
      readWord t 0x018 == 0x00000022) = true := by decide
/-- R247's worked example: an 8-bit write to `CMD`. -/
theorem test_byte_write_refused : stepsTo (soon [.host (.write .byte 0x004 0x42)] (configured 8 4))
    (fun t => readWord t 0x008 == 0x00004000 && readWord t 0x018 == 0x00000007) = true := by decide

/-! ### The arithmetic, against the spec's vectors -/

/-- V14 and V16. -/
theorem test_gain_indices : gainIndices true 0 [40, 40, 40, 40] = [63, 63, 63, 63] ∧
    gainIndices false 63 [63, 40, 0, 4] = [63, 63, 59, 59] := by decide
/-- R154, some rows of its table. -/
theorem test_gain_table : [0, 21, 23, 32, 44, 57].map gainLut =
    [81920, 2244608, 3080192, 12713984, 83886080, 654311424] := by decide
/-- V17. -/
theorem test_residuals : residualDequant (qstepQ16 .nbmb) (List.replicate 8 (0, 64) ++ [(-6, 64), (0, 0)]) =
    [-1, -1, -1, -2, -5, -17, -68, -272, -1088, 0] := by decide
/-- V19, the vector that the passes settle. -/
theorem test_stabilize_passes : nlsfStabilize (deltaMinQ15 .nbmb) (List.replicate 10 0) =
    [250, 253, 259, 262, 265, 268, 272, 275, 278, 281] := by decide +kernel
/-- V19, the vector that needs the fallback. -/
theorem test_stabilize_fallback : nlsfStabilize (deltaMinQ15 .nbmb) (List.replicate 10 32767) =
    [32276, 32279, 32285, 32288, 32291, 32294, 32298, 32301, 32304, 32307] := by decide +kernel
/-- R169. -/
theorem test_blend : blend 1 1000 2001 = 1250 ∧ blend 3 2001 1000 = 1250 := by decide
/-- R173. -/
theorem test_bandwidth_expansion : bwExpand [4096, 4096, 4096] bweAfterLossQ16 = [3973, 3854, 3738] := by decide
/-- R205. -/
theorem test_pitch_clamp : pitchMap 127 1 8 4 = [144, 144, 143, 142] ∧ pitchMap (-32768) 5 12 2 = [24, 24] := by
  decide
/-- Part T: the selectors and predictors of NBMB vector 5. -/
theorem test_nlsf_unpack :
    (List.range 10).map (nlsfSel testRom .nbmb 5) = [5, 6, 6, 0, 7, 2, 0, 4, 1, 6] ∧
    (List.range 10).map (nlsfPred testRom .nbmb 5) = [64, 64, 128, 64, 64, 64, 128, 64, 64, 0] := by decide

/-- P1, under the test ROM: the first-frame reconstruction of an unvoiced frame with an escape and both signs. -/
theorem test_recon_program1 :
    let r := reconCompute testRom (configured 8 4).channel
      { State.reset.idx with
        signalType := 1, quantOffsetType := 1, gainsIndex := #v[21, 4, 4, 4], nlsfInterpCoef := 2
        nlsfIndex := #v[0, 0, 0, -6, 0, 0, 0, 0, 1, 0, -1, 0, 0, 0, 0, 0, 0] } 0
    r.bank.predCoef1.toList.take 10 = [206, 207, 207, 1281, 1604, 1939, 2317, 2714, 2838, 3034] ∧
    r.bank.predCoef0 = r.bank.predCoef1 ∧ r.nlsfInterpCoef = 4 ∧ r.lastGainIndex = 21 := by decide +kernel
/-- P2: the Q14 taps of periodicity 1, index 9. -/
theorem test_ltp_taps : ltpTaps testRom 1 9 = [1280, 1024, 768, 512, 256] := by decide

/-! ### Witnesses: for each statement with hypotheses, a state and operands that meet them, clause by clause -/

theorem witness_DecodeAndEncodeAgree :
    (Instr.decfrm 2 true).wellFormed = true ∧ decode 0x64 = .ok (.decfrm 2 true) := by decide

theorem witness_StepRunsTheDecodedCommand :
    (State.reset.withFetchWord 32 0x62).agenda = [wordWrite 0x004 0x62] ∧ decode 0x62 = .ok (.decidx 2 true) ∧
    (Instr.decidx 2 true).wellFormed = true := by decide

theorem witness_IllegalWordRaisesErrCmd :
    (State.reset.withFetchWord 32 6).agenda = [wordWrite 0x004 6] ∧ legalWord 6 = false ∧
    (State.reset.withFetchWord 32 6).seq = .idle := by decide

theorem witness_CommandWithoutConfigRaisesErrConfig :
    (∀ i ∈ [Instr.decidx 2 true, .recon, .decfrm 0 false],
      i.wellFormed = true ∧ (i.opcode = 2 ∨ i.opcode = 3 ∨ i.opcode = 4)) ∧
    (configured 9 4).seq = .idle ∧ (configured 9 4).channel.cfgOk = false ∧
    (configured 16 3).channel.cfgOk = false := by decide

theorem witness_ReconWithoutIndicesRaisesErrSeq :
    (configured 8 4).seq = .idle ∧ (configured 8 4).channel.cfgOk = true ∧
    (configured 8 4).idxStatus.valid = false ∧
    (ready 1).seq = .idle ∧ (ready 1).channel.cfgOk = true ∧ (ready 1).idxStatus.valid = true := by decide

theorem witness_IllegalOperandsRaiseErrArg :
    ({ State.reset with pmArg := pmWord 0 11 8 4 }).seq = .idle ∧ pmLegal (pmWord 0 11 8 4) = false ∧
    pmLegal (pmWord 0 10 8 4 ||| 0x00400000) = false := by decide

theorem witness_ReservedModeRaisesErrCmd :
    (Instr.decidx 3 false = .decidx 3 false ∨ Instr.decidx 3 false = .decfrm 3 false) ∧
    (Instr.decfrm 3 false = .decidx 3 false ∨ Instr.decfrm 3 false = .decfrm 3 false) ∧
    State.reset.seq = .idle := by decide

theorem witness_CommandWhileBusyIsRefused :
    (running .signalType 1 none).seq = .running (waitingRun .signalType 1 none) := by decide

theorem witness_HostWritesWhileBusy :
    ∀ off ∈ [0x004, 0x008, 0x00C, 0x010, 0x014, 0x030],
      (soon [wordWrite off 0x82] (running .signalType 1 none)).seq = .running (waitingRun .signalType 1 none) ∧
      (soon [wordWrite off 0x82] (running .signalType 1 none)).agenda = [wordWrite off 0x82] := by decide

theorem witness_RefusedAccessRecordsErrBus :
    (AccessWidth.byte ≠ .word ∨ (0x004 : Offset).toNat % 4 ≠ 0) ∧
    (AccessWidth.wider ≠ .word ∨ (0xFFC : Offset).toNat % 4 ≠ 0) ∧
    (AccessWidth.word ≠ .word ∨ (0x001 : Offset).toNat % 4 ≠ 0) ∧
    (AccessWidth.word ≠ .word ∨ (0xFFF : Offset).toNat % 4 ≠ 0) ∧
    (soon [.host (.read .byte 0x004)] State.reset).agenda = [.host (.read .byte 0x004)] ∧
    (soon [.host (.write .word 0xFFF 1)] State.reset).agenda = [.host (.write .word 0xFFF 1)] := by decide

theorem witness_NopSetsDoneOnly : State.reset.seq = .idle := by decide

theorem witness_ResetReinitialisesTheChannel : (ready 2).seq = .idle := by decide

theorem witness_DecidxStartsTheExchange :
    (configured 8 4).seq = .idle ∧ (configured 8 4).channel.cfgOk = true ∧ (0 : BitVec 2) ≠ 3 ∧
    (2 : BitVec 2) ≠ 3 := by decide

theorem witness_DecfrmStartsTheExchange :
    (configured 16 2).seq = .idle ∧ (configured 16 2).channel.cfgOk = true ∧ (1 : BitVec 2) ≠ 3 := by decide

/-- An independent and a conditional frame, and one of two subframes. -/
theorem witness_GainsAreDequantized :
    (ready 1).seq = .idle ∧ (ready 1).channel.cfgOk = true ∧ (ready 1).idxStatus.valid = true ∧
    (ready 1).idxStatus.mode = 0 ∧
    let s := { ready 1 with
      idxStatus := { valid := true, mode := 2, vad := true }, channel := (configured 16 2).channel }
    s.seq = .idle ∧ s.channel.cfgOk = true ∧ s.idxStatus.valid = true ∧ s.idxStatus.mode = 2 := by decide

theorem witness_ReconCommitsTheFrame : ∀ st ∈ [0, 2],
    (ready st).seq = .idle ∧ (ready st).channel.cfgOk = true ∧ (ready st).idxStatus.valid = true := by decide

theorem witness_PitchmapWritesTheLags :
    (State.reset.seq = .idle) ∧ pmLegal (pmWord (-1) 33 16 4) = true ∧ pmLegal (pmWord 0x7FFF 2 8 2) = true := by
  decide

theorem witness_ImmediateCommandsLeaveTheSequencer :
    ∀ i ∈ [Instr.nop, .reset, .recon, .pitchmap], i.opcode ≠ 2 ∧ i.opcode ≠ 4 := by decide

/-- Whatever the selector tables hold, a residual symbol 4 is in range and takes no extension. -/
theorem symbolRead_residual (cb : Codebook) (sel : BitVec 3) (rest : List Byte) :
    symbolRead (tidRes cb sel) (4 :: rest) = .ok (4, rest) := by
  have h : alphabet (tidRes cb sel) = 9 := by cases cb <;> revert sel <;> decide
  simp [symbolRead, h]

theorem drawResidual_four (rom : Rom) (cb : Codebook) (st : Staged) (i : Nat) (rest : List Byte) :
    (drawResidual rom cb st i).run (4 :: rest) = .ok (stageNlsf (i + 1) 0 st, rest) := by
  unfold drawResidual
  rw [StateT.run_bind]
  unfold StateT.run
  rw [symbolRead_residual]
  rfl

theorem drawResiduals_four (rom : Rom) (cb : Codebook) (rest : List Byte) (ks : List Nat) (st : Staged) :
    (ks.foldlM (drawResidual rom cb) st).run (List.replicate ks.length 4 ++ rest) =
      .ok (ks.foldl (fun st i => stageNlsf (i + 1) 0 st) st, rest) := by
  induction ks generalizing st with
  | nil => rfl
  | cons k ks ih =>
    rw [List.foldlM_cons, StateT.run_bind, List.length_cons, List.replicate_succ, List.cons_append,
      drawResidual_four]
    exact ih _

theorem draw_bind {α β : Type} {m : Draw α} {f : α → Draw β} {l l' : List Byte} {a : α}
    {r : Except DrawStop (β × List Byte)} (h : m.run l = .ok (a, l')) (h2 : (f a).run l' = r) :
    (m >>= f).run l = r := by
  rw [StateT.run_bind, h]
  exact h2

/-- A whole unvoiced frame without escapes, whatever the block's own tables hold (V2's answers, at fs 8). -/
theorem plainFrame_completes : ∃ st, (indexProcedure Config.rom 0 true (configured 8 4).channel).run
    [1, 2, 5, 4, 4, 4, 0, 4, 4, 4, 4, 4, 4, 4, 4, 4, 4, 4, 0] = .ok (st, []) := by
  have h := drawResiduals_four Config.rom .nbmb [4, 0] (List.range 10)
  apply Exists.intro
  unfold indexProcedure
  refine draw_bind (a := 1) (l' := [2, 5, 4, 4, 4, 0, 4, 4, 4, 4, 4, 4, 4, 4, 4, 4, 4, 0]) rfl ?_
  refine draw_bind rfl ?_
  refine draw_bind rfl ?_
  refine draw_bind rfl ?_
  refine draw_bind (h _) ?_
  refine draw_bind rfl ?_
  refine draw_bind rfl ?_
  refine draw_bind rfl ?_
  rfl

/-- The hypotheses, and each of the procedure's three ends: waiting, out of range, complete. -/
theorem witness_DecidxRunsTheProcedure :
    (configured 8 4).seq = .idle ∧ (configured 8 4).channel.cfgOk = true ∧ (0 : BitVec 2) ≠ 3 ∧
    (indexProcedure Config.rom 0 true (configured 8 4).channel).run [] = .error (.waiting 1) ∧
    (indexProcedure Config.rom 0 true (configured 8 4).channel).run [4] = .error (.outOfRange 1 4 []) ∧
    ∃ st, (indexProcedure Config.rom 0 true (configured 8 4).channel).run
      [1, 2, 5, 4, 4, 4, 0, 4, 4, 4, 4, 4, 4, 4, 4, 4, 4, 4, 0] = .ok (st, []) :=
  ⟨by decide, by decide, by decide, rfl, rfl, plainFrame_completes⟩

/-- The same frame and ends as for DECIDX. -/
theorem witness_DecfrmEqualsDecidxThenRecon :
    (configured 8 4).seq = .idle ∧ (configured 8 4).channel.cfgOk = true ∧ (0 : BitVec 2) ≠ 3 ∧
    (indexProcedure Config.rom 0 true (configured 8 4).channel).run [1, 8] = .error (.outOfRange 3 8 []) ∧
    ∃ st, (indexProcedure Config.rom 0 true (configured 8 4).channel).run
      [1, 2, 5, 4, 4, 4, 0, 4, 4, 4, 4, 4, 4, 4, 4, 4, 4, 4, 0] = .ok (st, []) :=
  ⟨by decide, by decide, by decide, rfl, plainFrame_completes⟩

/-- V4's channel: fs 12, 2 subframes, the previous frame voiced with lag index 100. -/
def afterVoiced : Channel :=
  { (configured 12 2).channel with prevSignalType := 2, prevLagIndex := 100 }

/-- V4's answers: the delta was tried and was 0. -/
def fallbackAnswers : List Byte := [3, 7, 1, 4, 4, 4, 4, 4, 4, 4, 4, 4, 4, 4, 0, 20, 5, 11, 2, 15, 15, 2]

/-- V5's delta 12, in V4's frame: no absolute request. -/
def deltaAnswers : List Byte := [3, 7, 1, 4, 4, 4, 4, 4, 4, 4, 4, 4, 4, 4, 12, 11, 2, 15, 15, 2]

/-- V3's answers: an inactive frame of 2 subframes. -/
def inactiveAnswers : List Byte := [1, 3, 7, 4, 31, 4, 4, 4, 4, 4, 4, 4, 4, 4, 4, 2]

/-- The staged values of a completed procedure have a property. -/
def completes (mode : BitVec 2) (vad : Bool) (ch : Channel) (answers : List Byte) (p : Staged → Bool) : Bool :=
  match (indexProcedure testRom mode vad ch).run answers with
  | .ok (st, []) => p st
  | .ok (_, _ :: _) => false
  | .error _ => false

/-- V3: not voiced; V4: the delta tried and 0, `LAG_INDEX` 125; V5: the delta used, `LAG_INDEX` 103. -/
theorem witness_RequestCountOfAFrame :
    (configured 12 2).channel.cfgOk = true ∧ afterVoiced.cfgOk = true ∧ (2 : BitVec 2) ≠ 3 ∧
    completes 0 false (configured 12 2).channel inactiveAnswers (fun st => st.bank.signalType == 0) = true ∧
    completes 2 true afterVoiced fallbackAnswers
      (fun st => st.bank.signalType == 2 && st.bank.lagIndex == 125) = true ∧
    completes 2 true afterVoiced deltaAnswers
      (fun st => st.bank.signalType == 2 && st.bank.lagIndex == 103) = true := by decide +kernel

/-- The same frames: V3 is not voiced and has 2 subframes, V4 is voiced in a mode that codes no LTP scale. -/
theorem witness_UndecodedFieldsAreZero :
    (configured 12 2).channel.cfgOk = true ∧ (0 : BitVec 2) ≠ 3 ∧ (configured 12 2).channel.nbSubfr = 2 ∧
    completes 0 false (configured 12 2).channel inactiveAnswers
      (fun st => st.bank.signalType == 0 && st.bank.gainsIndex == #v[31, 4, 0, 0] && st.bank.seed == 2) = true ∧
    completes 2 true afterVoiced fallbackAnswers
      (fun st => st.bank.signalType == 2 && st.prevLagIndex == 125) = true := by decide +kernel

/-- A DECIDX and a DECFRM, each with the least answer that is out of range. -/
theorem witness_OutOfRangeSymbolAborts :
    (soon [.block] (running .gainMsb 3 (some 8))).agenda = [.block] ∧
    (running .gainMsb 3 (some 8)).seq = .running (waitingRun .gainMsb 3 (some 8)) ∧
    alphabet 3 ≤ ((8 : Byte).toNat : Int) ∧
    ({ waitingRun .seed 31 (some 4) with op := .decfrm }).response = some 4 ∧
    alphabet 31 ≤ ((4 : Byte).toNat : Int) := by decide

theorem witness_StagedValuesAreInvisible :
    stepsTo (soon [.block] (running .signalType 1 (some 3))) (fun t => t.busy) = true ∧
    stepsTo (soon [.respond 3] (running .signalType 1 none)) (fun t => t.busy) = true := by decide

/-- The first and the last subframe, the greatest gain symbol. -/
theorem witness_GainSymbolsAreStored :
    (running (.gainDelta 1) 6 (some 40)).seq = .running (waitingRun (.gainDelta (1 : Fin 4).val) 6 (some 40)) ∧
    (running (.gainDelta 3) 6 (some 40)).seq = .running (waitingRun (.gainDelta (3 : Fin 4).val) 6 (some 40)) ∧
    (40 : Byte) < 41 ∧ (configured 8 4).channel.cfgOk = true ∧ (1 : Fin 4).val + 1 < (configured 8 4).channel.nbSubfr.toNat ∧
    ¬ (3 : Fin 4).val + 1 < (configured 8 4).channel.nbSubfr.toNat := by decide

/-- Both ends of each clause: residual symbols 0, 1, 7 and 8, extensions 0 and 6 of either sign. -/
theorem witness_EscapeTakesOneExtension :
    (∀ v ∈ [0, 1, 7, 8], (running (.residual 0) 11 (some v)).seq = .running (waitingRun (.residual 0) 11 (some v)) ∧
      alphabet 11 = 9 ∧ v < 9) ∧
    (∀ x ∈ [0, 8], ∀ v ∈ [0, 6], (running (.extension 15 x) 27 (some v)).seq =
      .running (waitingRun (.extension 15 x) 27 (some v)) ∧ (x = 0 ∨ x = 8) ∧ v < 7) := by decide

/-- The fallback symbol, the least and the greatest delta. -/
theorem witness_DeltaPitchOrFallback : ∀ v ∈ [0, 1, 20],
    (soon [.block] (running .pitchDelta 29 (some v))).seq = .running (waitingRun .pitchDelta 29 (some v)) ∧
    (soon [.block] (running .pitchDelta 29 (some v))).agenda = [.block] ∧ v < 21 := by decide

theorem witness_TheBlockWaits :
    State.reset.agenda = [] ∧ (soon [.block] State.reset).agenda = [.block] ∧
    (soon [.block] (running .seed 31 none)).seq = .running (waitingRun .seed 31 none) := by decide

theorem witness_ResidualWrapHasNoEffect :
    (List.replicate 16 ((-10 : Int), (255 : Int))).length ≤ 16 ∧
    (∀ x ∈ List.replicate 16 ((-10 : Int), (255 : Int)), -10 ≤ x.1 ∧ x.1 ≤ 10 ∧ 0 ≤ x.2 ∧ x.2 ≤ 255) := by decide

theorem witness_StabilizerSpacesTheVector : ∀ x ∈ [List.replicate 10 (0 : Int), List.replicate 10 32767],
    x ≠ [] ∧ (deltaMinQ15 .nbmb).length = x.length + 1 ∧ deltaMinLegal (deltaMinQ15 .nbmb) = true := by decide

theorem witness_StableVectorIsUnchanged :
    (deltaMinQ15 .nbmb).length = [250, 253, 259, 262, 265, 268, 272, 275, 278, (281 : Int)].length + 1 ∧
    ∀ m ∈ slacks 0 [250, 253, 259, 262, 265, 268, 272, 275, 278, 281] (deltaMinQ15 .nbmb), 0 ≤ m := by decide

/-- Both ends of the factor; a frame that is blended (factor 1, not the first) after a loss, and one that is copied. -/
theorem witness_PredictionCoefficientsAreBlended :
    (0 : Int) ≤ 0 ∧ (4 : Int) ≤ 4 ∧
    let s := { ready 1 with
      channel := { (ready 1).channel with firstFrame := false, lossCnt := 1 }
      idx := { (ready 1).idx with nlsfInterpCoef := 1 } }
    s.seq = .idle ∧ s.channel.cfgOk = true ∧ s.idxStatus.valid = true ∧ s.idx.nlsfInterpCoef.toNat < 4 ∧
    (ready 1).seq = .idle ∧ (ready 1).channel.cfgOk = true ∧ (ready 1).idxStatus.valid = true ∧
    (ready 1).channel.firstFrame = true ∧ (ready 1).channel.lossCnt = 0 := by decide

theorem witness_BandwidthExpansionFits :
    ∀ x ∈ [(-32768 : Int), 0, 32767], -32768 ≤ x ∧ x ≤ 32767 := by decide

theorem witness_PitchmapAgreesWithRecon :
    (ready 2).seq = .idle ∧ (ready 2).channel.cfgOk = true ∧ (ready 2).idxStatus.valid = true ∧
    (ready 2).idx.signalType = 2 ∧
    (ready 2).idx.contourIndex.toNat <
      contourSize (ready 2).channel.fsKhz.toNat (ready 2).channel.nbSubfr.toNat := by decide

theorem witness_FirstFrameNeverInterpolates :
    (ready 1).seq = .idle ∧ (ready 1).channel.cfgOk = true ∧ (ready 1).idxStatus.valid = true ∧
    (ready 1).channel.firstFrame = true := by decide

theorem witness_UnvoicedFrameZeroesPitchAndLtp : ∀ st ∈ [0, 1],
    (ready st).seq = .idle ∧ (ready st).channel.cfgOk = true ∧ (ready st).idxStatus.valid = true ∧
    (ready st).idx.signalType ≠ 2 := by decide

theorem witness_VoicedFrameExpandsLtp :
    (ready 2).seq = .idle ∧ (ready 2).channel.cfgOk = true ∧ (ready 2).idxStatus.valid = true ∧
    (ready 2).idx.signalType = 2 ∧ (ready 2).idx.ltpScaleIndex ≠ 3 := by decide

/-- Two subframes and order 10: positions past both counts exist. -/
theorem witness_ReconZeroesUnusedEntries :
    let s := { ready 1 with channel := (configured 8 2).channel }
    s.seq = .idle ∧ s.channel.cfgOk = true ∧ s.idxStatus.valid = true ∧
    s.channel.nbSubfr.toNat ≤ (2 : Fin 4).val ∧ 5 * s.channel.nbSubfr.toNat ≤ (10 : Fin 20).val ∧
    lpcOrder s.channel.fsKhz.toNat ≤ (10 : Fin 16).val := by decide

/-- Two states that differ in what RECON does not read: the loss count's value, `PREV_LAG_INDEX`, `PM_ARG`. -/
theorem witness_ReconDependsOnlyOnItsOperands :
    let s := { ready 1 with channel := { (ready 1).channel with lossCnt := 1 } }
    let s' := { ready 1 with
      pmArg := 7, channel := { (ready 1).channel with lossCnt := 9, prevLagIndex := 5 } }
    s.seq = .idle ∧ s'.seq = .idle ∧ s.channel.cfgOk = true ∧ s.idxStatus.valid = true ∧
    s'.idxStatus.valid = true ∧ s.idx = s'.idx ∧ s.idxStatus.mode = s'.idxStatus.mode ∧
    s.channel.fsKhz = s'.channel.fsKhz ∧ s.channel.nbSubfr = s'.channel.nbSubfr ∧
    s.channel.lastGainIndex = s'.channel.lastGainIndex ∧ s.channel.prevNlsf = s'.channel.prevNlsf ∧
    s.channel.firstFrame = s'.channel.firstFrame ∧ (s.channel.lossCnt = 0 ↔ s'.channel.lossCnt = 0) := by decide

theorem witness_RegisterMapIsConsistent :
    (0x300 : Offset).toNat % 4 = 0 ∧ regAt 0x000 = some .id ∧ regAt 0x30C = some (.ltpCoefQ14 19) ∧
    regAt 0x310 = none := by decide

theorem witness_ReadsHaveNoSideEffect :
    (soon [wordRead 0x008, wordRead 0x008] State.reset).agenda = [wordRead 0x008, wordRead 0x008] ∧
    (soon [wordRead 0x008, .block] State.reset).agenda = [wordRead 0x008, .block] ∧
    (0x008 : Offset).toNat % 4 = 0 := by decide

/-- A read-only register, and an offset that holds none. -/
theorem witness_IgnoredWrites :
    (0x018 : Offset).toNat % 4 = 0 ∧ (∀ r, regAt 0x018 = some r → r.writable = false) ∧
    (∀ r, regAt 0xFFC = some r → r.writable = false) ∧ regAt 0xFFC = none := by
  have hi : regAt 0x018 = some .errInfo := by decide
  have hn : regAt 0xFFC = none := by decide
  refine ⟨by decide, fun r h => ?_, fun r h => ?_, hn⟩
  · rw [hi] at h; cases h; rfl
  · rw [hn] at h; cases h

theorem witness_CfgWriteConfigures :
    (soon [wordWrite 0x010 0xFFFFFFFF] (ready 2)).seq = .idle ∧
    (soon [wordWrite 0x010 0xFFFFFFFF] (ready 2)).agenda = [wordWrite 0x010 0xFFFFFFFF] := by decide

theorem witness_PlainWritesStore :
    (soon [wordWrite 0x014 0xFFFFFFFF] (ready 2)).seq = .idle ∧
    ∀ off ∈ [0x014, 0x00C, 0x030],
      (soon [wordWrite off 0xFFFFFFFF] (ready 2)).agenda = [wordWrite off 0xFFFFFFFF] := by decide

theorem witness_StatusWriteClears :
    (soon [wordWrite 0x008 0x7F02] (running .seed 31 none)).agenda = [wordWrite 0x008 0x7F02] := by decide

theorem witness_PowerOnResetsFromAnyState :
    (soon [.powerOn, .block] (running .seed 31 none)).agenda = [.powerOn, .block] := by decide

/-- An idle block's RECON, and a running DECFRM's last symbol, change what the statement watches. -/
theorem witness_WhoWritesTheReconstructedState :
    stepsTo ((ready 1).withFetchWord 32 0x03) (fun t => t.dc.gainQ16 != (ready 1).dc.gainQ16) = true ∧
    stepsTo (soon [.block] { configured 8 4 with
      seq := .running { waitingRun .seed 31 (some 0) with op := .decfrm } })
      (fun t => t.dc.gainQ16 != State.reset.dc.gainQ16) = true := by decide

/-- An error is recorded on top of a recorded one. -/
theorem witness_EveryStepKeepsTheErrorRecordCoherent :
    let s := soon [wordWrite 0x004 0x0F] { State.reset with
      status := { State.reset.status with errBus := true }
      errInfo := { code := 7, op := 0, tid := 0, symval := 0 } }
    ErrorRecordCoherent s ∧ stepsTo s (fun t => t.status.errCmd && t.errInfo.code == 7) = true := by decide

theorem witness_EveryStepKeepsTheSequencerCoherent :
    let s := soon [.block] (running .signalType 1 (some 3))
    SequencerCoherent Config.rom s ∧
    stepsTo s (fun t => match t.seq with | .running r => r.pending == 4 | .idle => false) = true := by
  refine ⟨⟨by decide, by decide, rfl, by decide⟩, by decide⟩

theorem witness_EveryStepKeepsTheIndicesInRange :
    let s := soon [.block] (running .gainMsb 2 (some 7))
    SequencerCoherent Config.rom s ∧ IndicesInRange s ∧
    stepsTo s (fun t => match t.seq with | .running r => r.step == .gainLsb 7 | .idle => false) = true := by
  refine ⟨⟨by decide, by decide, rfl, by decide⟩, ?_, by decide⟩
  refine ⟨by decide, by decide, by decide, by decide, ?_⟩
  exact ⟨by decide, by decide, trivial, by decide, by decide, by decide⟩

theorem witness_EveryStepKeepsTheControlBankInRange :
    let s := (ready 2).withFetchWord 32 0x03
    SequencerCoherent Config.rom s ∧ IndicesInRange s ∧ ControlInRange s ∧
    stepsTo s (fun t => t.dc.pitchLag == #v[16, 16, 16, 16]) = true := by
  refine ⟨trivial, ⟨by decide +kernel, by decide, by decide, by decide, trivial⟩, by decide +kernel,
    by decide +kernel⟩

end Sys2Proof.Tests
end

section
/-! PROOFS. The error record and the sequencer along every step (O56, O57). -/

namespace Sys2Proof.Machine

/-! ### The error record -/

@[simp] theorem setError_anyError (st : Status) (c : ErrorCause) : (st.setError c).anyError = true := by
  cases c <;> simp [Status.setError, Status.anyError]

theorem anyError_of_clearBits {st : Status} {w : Word} (h : (st.clearBits w).anyError = true) :
    st.anyError = true := by
  simp only [Status.anyError, Status.clearBits, Bool.or_eq_true, Bool.and_eq_true] at h ⊢
  tauto

/-- The error record is a matter of the error bits and `ERR_INFO` alone. -/
theorem errorRecordCoherent_congr {s t : State} (hs : t.status.anyError = s.status.anyError)
    (he : t.errInfo = s.errInfo) (h : ErrorRecordCoherent s) : ErrorRecordCoherent t := by
  unfold ErrorRecordCoherent at h ⊢
  rwa [hs, he]

/-- An error keeps the record coherent if it names an opcode, a table id and a symbol only where its cause may
(R240, R248). -/
theorem recordError_keeps_errorRecordCoherent {s : State} {c : ErrorCause} {op : BitVec 4} {tid : Tid} {val : Byte}
    (hop : c = .bus → op = 0) (hsym : c ≠ .symbol → tid = 0 ∧ val = 0) (h : ErrorRecordCoherent s) :
    ErrorRecordCoherent (recordError c op tid val s) := by
  obtain ⟨-, hle, htid, hbus, -⟩ := h
  unfold ErrorRecordCoherent
  by_cases h0 : s.errInfo.code = 0
  · cases c <;> simp_all [ErrorCause.code]
  · simp_all

theorem clearStatus_keeps_errorRecordCoherent {s : State} (w : Word) (h : ErrorRecordCoherent s) :
    ErrorRecordCoherent (clearStatus w s) := by
  unfold ErrorRecordCoherent
  by_cases hc : (s.status.clearBits w).anyError = true
  · have hs : s.status.anyError = true := anyError_of_clearBits hc
    obtain ⟨hiff, hrest⟩ := h
    simpa [hc] using And.intro (hiff.1 hs) hrest
  · simp [hc, ErrInfo.none]

theorem reset_errorRecordCoherent : ErrorRecordCoherent State.reset := by decide

theorem errorRecordCoherent_keptByOps : KeptByOps ErrorRecordCoherent where
  agenda _ _ h := h
  reply _ _ h := h
  done _ h := errorRecordCoherent_congr rfl rfl h
  record _ _ _ hop hsym h := recordError_keeps_errorRecordCoherent hop (fun _ => ⟨rfl, rfl⟩) h
  abort _ _ s _ h :=
    errorRecordCoherent_congr rfl rfl
      (recordError_keeps_errorRecordCoherent (s := s) (c := .symbol) (by simp) (by simp) h)
  clear w _ h := clearStatus_keeps_errorRecordCoherent w h
  cfg w s h := by
    unfold writeCfg
    split
    · exact recordError_keeps_errorRecordCoherent (by simp) (by simp) h
    · exact h
  lossCnt w s h := by
    unfold writeLossCnt
    split
    · exact recordError_keeps_errorRecordCoherent (by simp) (by simp) h
    · exact h
  ctrl _ _ h := h
  pmArg _ _ h := h
  channelReset _ _ h := h
  start _ _ _ _ _ _ _ h := h
  recon _ _ _ _ h := h
  pitchmap _ h := h
  answer _ _ _ _ h := h
  accept r v s _ _ _ h := by
    cases absorb (frameContext r.mode r.vad s.channel) v r.staged r.step with
    | ask step st => exact h
    | finished st =>
      simp only [proceed, finishRun]
      split <;> exact errorRecordCoherent_congr rfl rfl h
  powerOn _ _ := reset_errorRecordCoherent

/-- Settles O56: each shared operation keeps the record coherent. -/
theorem everyStepKeepsTheErrorRecordCoherent : Obligations.EveryStepKeepsTheErrorRecordCoherent :=
  fun _ _ h hstep => errorRecordCoherent_keptByOps.step h hstep

/-! ### The sequencer -/

theorem sequencerCoherent_of_idle {rom : Rom} {s : State} (h : s.seq = .idle) : SequencerCoherent rom s := by
  simp [SequencerCoherent, h]

theorem sequencerCoherent_of_running {rom : Rom} {s : State} {r : Run} (h : s.seq = .running r) :
    SequencerCoherent rom s ↔ RunCoherent rom s r := by
  simp only [SequencerCoherent, h]

/-- The sequencer's coherence is a matter of the sequencer and the channel alone. -/
theorem sequencerCoherent_congr {rom : Rom} {s t : State} (hseq : t.seq = s.seq) (hch : t.channel = s.channel)
    (h : SequencerCoherent rom s) : SequencerCoherent rom t := by
  cases hs : s.seq with
  | idle => exact sequencerCoherent_of_idle (hseq.trans hs)
  | running r =>
    rw [sequencerCoherent_of_running (hseq.trans hs)]
    rw [sequencerCoherent_of_running hs] at h
    simpa only [RunCoherent, hch] using h

/-- Whatever is staged, a request names one of the 42 table ids of R93 (R94, R95). -/
theorem requestTid_lt (rom : Rom) (c : FrameContext) (st : Staged) (step : SeqStep) :
    requestTid rom c st step < 42 := by
  cases step <;> simp only [requestTid]
  case signalType => unfold tidType; split <;> decide
  case gainMsb => generalize st.bank.signalType = x; revert x; decide
  case stage1 =>
    generalize st.bank.signalType = x
    cases codebookOf c.fs <;> revert x <;> decide
  case residual i =>
    generalize nlsfSel _ _ _ i = x
    cases codebookOf c.fs <;> revert x <;> decide
  case pitchLow => unfold tidLowbits; split_ifs <;> decide
  case contour => unfold tidContour; split_ifs <;> decide
  case ltpGain => generalize st.bank.perIndex = x; revert x; decide
  all_goals decide

theorem startRun_sequencerCoherent {rom : Rom} {s : State} (op : RunOp) {mode : BitVec 2} (vad : Bool)
    (hm : mode ≠ 3) (hc : s.channel.cfgOk = true) : SequencerCoherent rom (startRun op mode vad s) :=
  ⟨hc, hm, rfl, requestTid_lt rom (frameContext mode vad s.channel) (initialStaged s.channel) .signalType⟩

@[simp] theorem finishRun_seq (rom : Rom) (r : Run) (st : Staged) (s : State) : (finishRun rom r st s).seq = .idle := by
  unfold finishRun
  split <;> rfl

/-- A request that goes out is the one that the new step and the new staged values call for. -/
theorem proceed_keeps_sequencerCoherent {rom : Rom} {r : Run} {s : State} (p : Progress) (h : RunCoherent rom s r) :
    SequencerCoherent rom (proceed rom r s p) := by
  obtain ⟨hc, hm, -, -⟩ := h
  cases p with
  | ask step st => exact ⟨hc, hm, rfl, requestTid_lt _ _ _ _⟩
  | finished st => exact sequencerCoherent_of_idle (finishRun_seq rom r st s)

theorem sequencerCoherent_keptByOps : KeptByOps (SequencerCoherent Config.rom) where
  agenda _ _ h := h
  reply _ _ h := h
  done _ h := h
  record _ _ _ _ _ h := h
  abort _ _ _ _ _ := sequencerCoherent_of_idle rfl
  clear _ _ h := h
  cfg w s h := by
    cases hs : s.seq with
    | idle => exact sequencerCoherent_of_idle (by rw [writeCfg_idle w hs]; exact hs)
    | running r => rw [writeCfg_running w hs]; exact sequencerCoherent_congr rfl rfl h
  lossCnt w s h := by
    cases hs : s.seq with
    | idle => exact sequencerCoherent_of_idle (by rw [writeLossCnt_idle w hs]; exact hs)
    | running r => rw [writeLossCnt_running w hs]; exact sequencerCoherent_congr rfl rfl h
  ctrl _ _ h := h
  pmArg _ _ h := h
  channelReset _ hs _ := sequencerCoherent_of_idle hs
  start op _ vad _ _ hm hc _ := startRun_sequencerCoherent op vad hm hc
  recon _ hs _ _ _ := sequencerCoherent_of_idle hs
  pitchmap _ h := h
  answer r _ _ hs h := (sequencerCoherent_of_running hs).1 h
  accept _ _ _ hs _ _ h := proceed_keeps_sequencerCoherent _ ((sequencerCoherent_of_running hs).1 h)
  powerOn _ _ := sequencerCoherent_of_idle rfl

/-- Settles O57: each shared operation keeps the sequencer coherent. -/
theorem everyStepKeepsTheSequencerCoherent : Obligations.EveryStepKeepsTheSequencerCoherent :=
  fun _ _ h hstep => sequencerCoherent_keptByOps.step h hstep

end Sys2Proof.Machine
end

section
/-! PROOFS. The ranges of what the stabilizer, the gain dequantizer and the pitch lag mapper compute. -/

namespace Sys2Proof.Machine

/-! ### The stabilizer (R167) -/

theorem firstMin_le {best : Int} {bestAt at_ : Nat} {xs : List Int} :
    (firstMin best bestAt at_ xs).1 ≤ best ∧ ∀ x ∈ xs, (firstMin best bestAt at_ xs).1 ≤ x := by
  induction xs generalizing best bestAt at_ with
  | nil => simp [firstMin]
  | cons x xs ih =>
    unfold firstMin
    split
    all_goals
      obtain ⟨hbest, hxs⟩ := ih
      simp only [List.mem_cons, forall_eq_or_imp]
      exact ⟨by omega, by omega, hxs⟩

/-- The least slack bounds every slack from below. -/
theorem leastSlack_le {d x : List Int} : ∀ m ∈ slacks 0 x d, (leastSlack d x).1 ≤ m := by
  unfold leastSlack
  cases slacks 0 x d with
  | nil => simp
  | cons m ms => simpa using firstMin_le

@[simp] theorem length_insertSorted (v : Int) (xs : List Int) : (insertSorted v xs).length = xs.length + 1 := by
  induction xs with
  | nil => rfl
  | cons x xs ih => unfold insertSorted; split <;> simp [ih]

@[simp] theorem length_sortIncreasing (xs : List Int) : (sortIncreasing xs).length = xs.length := by
  induction xs with
  | nil => rfl
  | cons x xs ih => simp [sortIncreasing, ih]

@[simp] theorem length_raiseFrom (below : Int) (xs d : List Int) : (raiseFrom below xs d).length = xs.length := by
  induction xs generalizing below d with
  | nil => rfl
  | cons x xs ih => simp [raiseFrom, ih]

@[simp] theorem length_lowerFrom (xs d : List Int) : (lowerFrom xs d).length = xs.length := by
  induction xs generalizing d with
  | nil => rfl
  | cons x xs ih => simp [lowerFrom, ih]

@[simp] theorem length_stabilizePass (d x : List Int) (i : Nat) : (stabilizePass d x i).length = x.length := by
  unfold stabilizePass
  split_ifs <;> simp

@[simp] theorem length_stabilizeFallback (d x : List Int) : (stabilizeFallback d x).length = x.length := by
  have hlen := length_sortIncreasing x
  unfold stabilizeFallback
  split
  · next h => simpa [h] using hlen
  · next y ys h => simpa [h] using hlen

theorem length_stabilizeLoop (d : List Int) (n : Nat) (x : List Int) : (stabilizeLoop d n x).length = x.length := by
  induction n generalizing x with
  | zero => exact length_stabilizeFallback d x
  | succ n ih => unfold stabilizeLoop; split <;> simp [ih]

@[simp] theorem length_nlsfStabilize (d x : List Int) : (nlsfStabilize d x).length = x.length :=
  length_stabilizeLoop d _ x

/-- The downward pass leaves no negative slack above the first element's. -/
theorem slacks_lowerFrom_nonneg (xs d : List Int) (below : Int)
    (h : below + d.headD 0 ≤ (lowerFrom xs d.tail).headD 32768) :
    ∀ m ∈ slacks below (lowerFrom xs d.tail) d, 0 ≤ m := by
  induction xs generalizing d below with
  | nil => simpa [lowerFrom, slacks] using h
  | cons x xs ih =>
    simp only [lowerFrom, slacks, List.headD_cons, List.mem_cons, forall_eq_or_imp] at h ⊢
    exact ⟨by omega, ih d.tail _ (by omega)⟩

theorem le_sat16 {x y : Int} (hx : x ≤ 32767) (hxy : x ≤ y) : x ≤ sat16 y := by
  unfold sat16
  rw [clamp_eq_min_max (by decide)]
  omega

/-- The fallback's two passes keep every element at or above the sum `b` of the minimum deltas up to it, as long as
all of them fit below 32768. -/
theorem le_head_lowerFrom_raiseFrom (xs d : List Int) (b below : Int) (hlen : d.length = xs.length + 1)
    (hd : ∀ m ∈ d, 1 ≤ m) (hsum : b + d.sum ≤ 32768) (hb : b ≤ below) :
    b + d.headD 0 ≤ (lowerFrom (raiseFrom below xs d) d.tail).headD 32768 := by
  induction xs generalizing d b below with
  | nil =>
    obtain ⟨m, rfl⟩ := List.length_eq_one_iff.1 hlen
    simpa [raiseFrom, lowerFrom] using hsum
  | cons x xs ih =>
    match d, hlen with
    | m :: ms, hlen =>
      simp only [List.mem_cons, forall_eq_or_imp, List.sum_cons] at hd hsum
      have hpos : 0 < ms.sum := List.sum_pos ms hd.2 (by rintro rfl; simp at hlen)
      have hsat : b + m ≤ sat16 (below + m) := le_sat16 (by omega) (by omega)
      have hrest := ih ms (b + m) (max x (sat16 (below + m))) (by simpa using hlen) hd.2 (by omega) (by omega)
      simp only [raiseFrom, lowerFrom, List.headD_cons, List.tail_cons]
      omega

theorem stabilizeFallback_slacks_nonneg {d x : List Int} (hlen : d.length = x.length + 1)
    (hd : ∀ m ∈ d, 1 ≤ m) (hsum : d.sum ≤ 32768) : ∀ m ∈ slacks 0 (stabilizeFallback d x) d, 0 ≤ m := by
  have hsorted := length_sortIncreasing x
  match d, hlen with
  | m :: ms, hlen =>
    simp only [List.mem_cons, forall_eq_or_imp, List.sum_cons] at hd hsum
    unfold stabilizeFallback
    cases hs : sortIncreasing x with
    | nil =>
      obtain rfl : ms = [] := List.length_eq_zero_iff.1 (by simp_all [← hsorted])
      simp_all [slacks]
    | cons y ys =>
      have hhead := le_head_lowerFrom_raiseFrom ys ms m (max y m) (by simp_all) hd.2 hsum (by omega)
      apply slacks_lowerFrom_nonneg _ (m :: ms) 0
      simp only [lowerFrom, List.headD_cons, List.tail_cons]
      omega

/-- Every exit of the stabilizer leaves all slacks nonnegative (R167). -/
theorem nlsfStabilize_slacks_nonneg {d x : List Int} (hlen : d.length = x.length + 1)
    (hd : ∀ m ∈ d, 1 ≤ m) (hsum : d.sum ≤ 32768) : ∀ m ∈ slacks 0 (nlsfStabilize d x) d, 0 ≤ m := by
  unfold nlsfStabilize
  generalize nlsfStabMaxLoops = n
  induction n generalizing x with
  | zero => exact stabilizeFallback_slacks_nonneg hlen hd hsum
  | succ n ih =>
    unfold stabilizeLoop
    split
    · next h => exact fun m hm => le_trans h (leastSlack_le m hm)
    · exact ih (by simpa using hlen)

/-- A vector with no negative slack lies strictly between its lower end and 32768. -/
theorem lt_of_slacks_nonneg {xs d : List Int} {below : Int} (hlen : d.length = xs.length + 1)
    (hd : ∀ m ∈ d, 1 ≤ m) (hs : ∀ m ∈ slacks below xs d, 0 ≤ m) :
    below < 32768 ∧ ∀ x ∈ xs, below < x ∧ x < 32768 := by
  induction xs generalizing d below with
  | nil =>
    match d, hlen with
    | m :: ms, _ => simp_all [slacks]; omega
  | cons x xs ih =>
    match d, hlen with
    | m :: ms, hlen =>
      simp only [List.mem_cons, forall_eq_or_imp, slacks, List.headD_cons, List.tail_cons] at hd hs ⊢
      obtain ⟨hx, hxs⟩ := ih (by simpa using hlen) hd.2 hs.2
      exact ⟨by omega, ⟨by omega, hx⟩, fun y hy => ⟨by have := hxs y hy; omega, (hxs y hy).2⟩⟩

theorem deltaMinQ15_legal (cb : Codebook) :
    (deltaMinQ15 cb).length = codebookOrder cb + 1 ∧ (∀ m ∈ deltaMinQ15 cb, 1 ≤ m) ∧ (deltaMinQ15 cb).sum ≤ 32768 := by
  cases cb <;> decide

@[simp] theorem length_nlsfDecode (rom : Rom) (cb : Codebook) (ind : Vector (BitVec 8) 17) :
    (nlsfDecode rom cb ind).length = codebookOrder cb := by
  simp [nlsfDecode]

/-- The reconstructed NLSFs are strictly between 0 and 32768, whatever the open tables hold (R23, R167). -/
theorem nlsfDecode_mem (rom : Rom) (cb : Codebook) (ind : Vector (BitVec 8) 17) :
    ∀ x ∈ nlsfDecode rom cb ind, 0 < x ∧ x < 32768 := by
  obtain ⟨hlen, hd, hsum⟩ := deltaMinQ15_legal cb
  unfold nlsfDecode
  exact (lt_of_slacks_nonneg (by simp [hlen]) hd (nlsfStabilize_slacks_nonneg (by simp [hlen]) hd hsum)).2

/-! ### The gain dequantizer (R151 to R155) -/

theorem gainStep_mem (absolute : Bool) (prev ind : Int) :
    0 ≤ gainStep absolute prev ind ∧ gainStep absolute prev ind ≤ 63 :=
  clamp_mem (by decide)

@[simp] theorem length_gainDeltas (prev : Int) (inds : List Int) : (gainDeltas prev inds).length = inds.length := by
  induction inds generalizing prev with
  | nil => rfl
  | cons ind inds ih => simp [gainDeltas, ih]

theorem gainDeltas_mem (prev : Int) (inds : List Int) : ∀ g ∈ gainDeltas prev inds, 0 ≤ g ∧ g ≤ 63 := by
  induction inds generalizing prev with
  | nil => simp [gainDeltas]
  | cons ind inds ih =>
    simp only [gainDeltas, List.mem_cons, forall_eq_or_imp]
    exact ⟨gainStep_mem _ _ _, ih _⟩

@[simp] theorem length_gainIndices (conditional : Bool) (last : Int) (inds : List Int) :
    (gainIndices conditional last inds).length = inds.length := by
  cases inds <;> simp [gainIndices]

theorem gainIndices_mem (conditional : Bool) (last : Int) (inds : List Int) :
    ∀ g ∈ gainIndices conditional last inds, 0 ≤ g ∧ g ≤ 63 := by
  cases inds with
  | nil => simp [gainIndices]
  | cons ind inds =>
    simp only [gainIndices, List.mem_cons, forall_eq_or_imp]
    exact ⟨gainStep_mem _ _ _, gainDeltas_mem _ _⟩

/-- The gains of the running indices lie in the range of R37. -/
theorem gainLut_mem {k : Int} (h0 : 0 ≤ k) (h63 : k ≤ 63) : 81920 ≤ gainLut k ∧ gainLut k ≤ 1686110208 := by
  have table : ∀ k : Fin 64, 81920 ≤ gainLut k.val ∧ gainLut k.val ≤ 1686110208 := by decide
  obtain ⟨n, rfl⟩ := Int.eq_ofNat_of_zero_le h0
  exact table ⟨n, by omega⟩

/-! ### The pitch lag mapper (R205) -/

@[simp] theorem length_pitchMap (lagIndex : Int) (contour fs nsf : Nat) :
    (pitchMap lagIndex contour fs nsf).length = nsf := by
  simp [pitchMap]

theorem pitchMap_mem (lagIndex : Int) (contour fs nsf : Nat) :
    ∀ l ∈ pitchMap lagIndex contour fs nsf, 2 * (fs : Int) ≤ l ∧ l ≤ 18 * (fs : Int) := by
  simp only [pitchMap, List.mem_map, forall_exists_index, and_imp]
  rintro _ k - rfl
  exact clamp_mem (by simp only [peMaxLagMs]; omega)

end Sys2Proof.Machine
end

section
/-! PROOFS. What RECON computes: its lengths and its ranges (O44). -/

namespace Sys2Proof.Machine

/-! ### What RECON computes -/

/-- A property of every packed value and of 0 holds of every register of a packed bank (D28). -/
theorem pack_forall {w n : Nat} {xs : List Int} {P : BitVec w → Prop} (h0 : P 0)
    (h : ∀ x ∈ xs, P (BitVec.ofInt w x)) (k : Fin n) : P (pack w n xs)[k] := by
  by_cases hk : k.val < xs.length
  · have hval : (pack w n xs)[k] = BitVec.ofInt w xs[k.val] := by
      simp [pack_getElem, hk]
    rw [hval]
    exact h _ (List.getElem_mem hk)
  · have hzero : (pack w n xs)[k] = 0 := pack_getElem_beyond w n xs k.val k.isLt (by omega)
    rwa [hzero]

@[simp] theorem length_nlsf2a (rom : Rom) (order : Nat) (x : List Int) : (nlsf2a rom order x).length = order := by
  simp [nlsf2a]

@[simp] theorem length_bwExpandFrom (cm1 chirp : Int) (a : List Int) :
    (bwExpandFrom cm1 chirp a).length = a.length := by
  induction a generalizing chirp with
  | nil => rfl
  | cons x xs ih => simp [bwExpandFrom, ih]

@[simp] theorem length_expandOnLoss (lossCnt : BitVec 32) (a : List Int) :
    (expandOnLoss lossCnt a).length = a.length := by
  unfold expandOnLoss bwExpand
  split <;> simp

@[simp] theorem length_ltpTaps (rom : Rom) (per ltp : Nat) : (ltpTaps rom per ltp).length = 5 := by
  simp [ltpTaps, ltpOrder]

section frame
variable (rom : Rom) (ch : Channel) (bank : IndexBank) (mode : BitVec 2)

theorem length_frameGainIndices_le : (frameGainIndices ch bank mode).length ≤ ch.nbSubfr.toNat := by
  simp [frameGainIndices]

theorem length_framePitchLags_le : (framePitchLags ch bank).length ≤ ch.nbSubfr.toNat := by
  unfold framePitchLags
  split <;> simp

theorem length_frameLtpTaps_le : (frameLtpTaps rom ch bank).length ≤ 5 * ch.nbSubfr.toNat := by
  unfold frameLtpTaps
  split
  · simp only [List.length_flatMap, length_ltpTaps, List.map_const', List.sum_replicate, List.length_take,
      smul_eq_mul]
    omega
  · simp

@[simp] theorem length_frameNlsf :
    (frameNlsf rom ch bank).length = codebookOrder (codebookOf ch.fsKhz.toNat) := by
  simp [frameNlsf]

@[simp] theorem length_secondHalf :
    (secondHalf rom ch bank).length = codebookOrder (codebookOf ch.fsKhz.toNat) := by
  simp [secondHalf]

@[simp] theorem length_firstHalf :
    (firstHalf rom ch bank).length = codebookOrder (codebookOf ch.fsKhz.toNat) := by
  unfold firstHalf
  split <;> simp

theorem frameGainIndices_mem : ∀ g ∈ frameGainIndices ch bank mode, 0 ≤ g ∧ g ≤ 63 :=
  gainIndices_mem _ _ _

/-- Under a legal configuration the lags lie in the union over the sample rates of `[2 fs, 18 fs]` (R37). -/
theorem framePitchLags_mem (hc : ch.cfgOk = true) : ∀ l ∈ framePitchLags ch bank, 16 ≤ l ∧ l ≤ 288 := by
  intro l hl
  unfold framePitchLags at hl
  split at hl
  · obtain ⟨hlo, hhi⟩ := pitchMap_mem _ _ _ _ l hl
    obtain ⟨hfs | hfs | hfs, -⟩ := cfgOk_cases hc <;> simp [hfs] at hlo hhi <;> omega
  · simp at hl

/-- A tap is a signed byte of the codebook, shifted to Q14 (R175). -/
theorem frameLtpTaps_mem :
    ∀ x ∈ frameLtpTaps rom ch bank, -16384 ≤ x ∧ x ≤ 16256 ∧ x % 128 = 0 := by
  intro x hx
  unfold frameLtpTaps ltpTaps at hx
  split at hx
  · simp only [List.mem_flatMap, List.mem_map] at hx
    obtain ⟨i, -, t, -, rfl⟩ := hx
    have hlo := BitVec.le_toInt (rom.ltpVqQ7 bank.perIndex.toNat i.toNat t)
    have hhi := BitVec.toInt_lt (x := rom.ltpVqQ7 bank.perIndex.toNat i.toNat t)
    simp only [shl]
    omega
  · simp at hx

theorem frameLtpScale_mem (h : bank.ltpScaleIndex ≤ 2) : frameLtpScale bank ∈ [0, 15565, 12288, 8192] := by
  unfold frameLtpScale
  split
  · generalize bank.ltpScaleIndex = x at h
    obtain rfl | rfl | rfl : x = 0 ∨ x = 1 ∨ x = 2 := by revert x; decide
    all_goals simp [tableRead, ltpScaleTable]
  · simp

end frame

/-- A signed register holds a value of a range that its width admits. -/
theorem inRange_toInt_ofInt {w : Nat} {x lo hi : Int} (hw : 0 < w) (hlo : -2 ^ (w - 1) ≤ lo) (hhi : hi < 2 ^ (w - 1))
    (h : InRange x lo hi) : (BitVec.ofInt w x).toInt = x ∧ InRange (BitVec.ofInt w x).toInt lo hi := by
  have heq : (BitVec.ofInt w x).toInt = x :=
    BitVec.toInt_ofInt_eq_self hw (le_trans hlo h.1) (lt_of_le_of_lt h.2 hhi)
  exact ⟨heq, heq.symm ▸ h⟩

section ranges
variable {rom : Rom} {ch : Channel} {bank : IndexBank} {mode : BitVec 2}

theorem reconCompute_gainQ16_inRange (k : Fin 4) :
    (reconCompute rom ch bank mode).bank.gainQ16[k] = 0 ∨
      InRange (reconCompute rom ch bank mode).bank.gainQ16[k].toInt 81920 1686110208 := by
  refine pack_forall (P := fun v => v = 0 ∨ InRange v.toInt 81920 1686110208) (.inl rfl) (fun x hx => .inr ?_) k
  obtain ⟨g, hg, rfl⟩ := List.mem_map.1 hx
  obtain ⟨h0, h63⟩ := frameGainIndices_mem _ _ _ g hg
  exact (inRange_toInt_ofInt (by decide) (by decide) (by decide) (gainLut_mem h0 h63)).2

theorem reconCompute_pitchLag_inRange (hc : ch.cfgOk = true) (k : Fin 4) :
    (reconCompute rom ch bank mode).bank.pitchLag[k] = 0 ∨
      InRange (reconCompute rom ch bank mode).bank.pitchLag[k].toInt 16 288 :=
  pack_forall (P := fun v => v = 0 ∨ InRange v.toInt 16 288) (.inl rfl)
    (fun l hl => .inr
      (inRange_toInt_ofInt (by decide) (by decide) (by decide) (framePitchLags_mem ch bank hc l hl)).2) k

theorem reconCompute_ltpScaleQ14_mem (h : bank.ltpScaleIndex ≤ 2) :
    (reconCompute rom ch bank mode).bank.ltpScaleQ14.toInt ∈ [0, 15565, 12288, 8192] := by
  have hmem := frameLtpScale_mem bank h
  have hrange : InRange (frameLtpScale bank) 0 15565 := by
    simp only [List.mem_cons, List.not_mem_nil, or_false] at hmem
    unfold InRange
    omega
  have heq : (reconCompute rom ch bank mode).bank.ltpScaleQ14.toInt = frameLtpScale bank :=
    (inRange_toInt_ofInt (by decide) (by decide) (by decide) hrange).1
  rwa [heq]

theorem reconCompute_ltpCoefQ14_inRange (k : Fin 20) :
    InRange (reconCompute rom ch bank mode).bank.ltpCoefQ14[k].toInt (-16384) 16256 ∧
      (reconCompute rom ch bank mode).bank.ltpCoefQ14[k].toInt % 128 = 0 := by
  refine pack_forall (P := fun v => InRange v.toInt (-16384) 16256 ∧ v.toInt % 128 = 0) (by decide) (fun x hx => ?_) k
  obtain ⟨hlo, hhi, hmod⟩ := frameLtpTaps_mem rom ch bank x hx
  obtain ⟨heq, hrange⟩ := inRange_toInt_ofInt (w := 16) (by decide) (by decide) (by decide) ⟨hlo, hhi⟩
  exact ⟨hrange, by rwa [heq]⟩

theorem reconCompute_prevNlsf_le (k : Fin 16) : (reconCompute rom ch bank mode).prevNlsf[k] ≤ 32767 := by
  refine pack_forall (P := fun v => v ≤ 32767) (by decide) (fun x hx => ?_) k
  obtain ⟨hlo, hhi⟩ := nlsfDecode_mem _ _ _ x hx
  have hnat : (BitVec.ofInt 16 x).toNat ≤ 32767 := by
    rw [BitVec.toNat_ofInt]
    omega
  exact hnat

theorem reconCompute_lastGainIndex_inRange (h : InRange ch.lastGainIndex.toInt 0 63) :
    InRange (reconCompute rom ch bank mode).lastGainIndex.toInt 0 63 := by
  refine (inRange_toInt_ofInt (by decide) (by decide) (by decide) ?_).2
  rcases List.mem_cons.1 List.getLastD_mem_cons with heq | hmem
  · rwa [heq]
  · exact frameGainIndices_mem _ _ _ _ hmem

end ranges

/-- RECON leaves every value it writes in the ranges of R37, R23 and R24. Of the operands only the configuration, the
LTP scale index and the last gain index matter. -/
theorem reconstruct_controlInRange {rom : Rom} {s : State} (hc : s.channel.cfgOk = true)
    (hscale : s.idx.ltpScaleIndex ≤ 2) (hgain : InRange s.channel.lastGainIndex.toInt 0 63) :
    ControlInRange (reconstruct rom s) :=
  ⟨reconCompute_gainQ16_inRange, reconCompute_pitchLag_inRange hc, reconCompute_ltpScaleQ14_mem hscale,
    reconCompute_ltpCoefQ14_inRange, reconCompute_prevNlsf_le (mode := s.idxStatus.mode),
    reconCompute_lastGainIndex_inRange (rom := rom) hgain⟩

/-- Settles O44: each packed bank is 0 past the end of the sequence that RECON computes for it. -/
theorem reconZeroesUnusedEntries : Obligations.ReconZeroesUnusedEntries := by
  intro s hidle hc hvalid
  refine ⟨_, exec_recon_of_ready hidle hc hvalid, fun k hk => ⟨?_, ?_⟩, fun k hk => ?_, fun k hk => ?_⟩
  · refine pack_getElem_beyond _ _ _ k.val k.isLt (le_trans ?_ hk)
    simpa using length_frameGainIndices_le _ _ _
  · exact pack_getElem_beyond _ _ _ k.val k.isLt (le_trans (length_framePitchLags_le _ _) hk)
  · exact pack_getElem_beyond _ _ _ k.val k.isLt (le_trans (length_frameLtpTaps_le _ _ _) hk)
  · rw [lpcOrder_eq_codebookOrder hc] at hk
    refine ⟨?_, ?_, ?_⟩ <;> refine pack_getElem_beyond _ _ _ k.val k.isLt ?_ <;> simpa using hk

end Sys2Proof.Machine
end

section
/-! PROOFS. The decoded word, the writers of the reconstructed state (O55, O59), and what a running
command shows (O26). -/

namespace Sys2Proof.Machine

/-! ### The word of a decoded command, and the offset of CMD -/

/-- A word whose reserved bits are 0 is the command word of its own fields (R80). -/
theorem commandWord_fields {w : Word} (h : rsvdField w = 0) :
    commandWord (opField w) (modeField w) (vadField w) = w := by
  have hsplit : w = rsvdField w ++ BitVec.ofBool (vadField w) ++ modeField w ++ opField w := by
    refine BitVec.eq_of_getLsbD_eq fun i hi => ?_
    simp only [rsvdField, vadField, modeField, opField, BitVec.getLsbD_append, BitVec.getLsbD_extractLsb',
      BitVec.getLsbD_ofBool]
    split_ifs with h4 h2 h1
    · simp [h4]
    · simp [h2, show 4 + (i - 4) = i by omega]
    · simp [show i = 6 by omega]
    · simp [show 7 + (i - 4 - 2 - 1) = i by omega, show i - 4 - 2 - 1 < 25 by omega]
  rw [h] at hsplit
  exact hsplit.symm

theorem bareCommand_eq_ok {i j : Instr} {mode : BitVec 2} {vad : Bool} (h : bareCommand i mode vad = .ok j) :
    mode = 0 ∧ vad = false ∧ j = i := by
  unfold bareCommand at h
  split at h
  · next h0 => cases h; exact ⟨h0.1, h0.2, rfl⟩
  · cases h

/-- A command's encoding holds the fields that name it (R81, R84). -/
theorem encode_of_decodeFields {op : BitVec 4} {mode : BitVec 2} {vad : Bool} {i : Instr}
    (h : decodeFields op mode vad = .ok i) : encode i = commandWord op mode vad := by
  unfold decodeFields at h
  split_ifs at h with hnop hreset hdecidx hmode hrecon hdecfrm hmode hpitchmap
  · obtain ⟨rfl, rfl, rfl⟩ := bareCommand_eq_ok h
    rw [hnop]; rfl
  · obtain ⟨rfl, rfl, rfl⟩ := bareCommand_eq_ok h
    rw [hreset]; rfl
  · cases h
    rw [hdecidx]; rfl
  · obtain ⟨rfl, rfl, rfl⟩ := bareCommand_eq_ok h
    rw [hrecon]; rfl
  · cases h
    rw [hdecfrm]; rfl
  · obtain ⟨rfl, rfl, rfl⟩ := bareCommand_eq_ok h
    rw [hpitchmap]; rfl

/-- Only its own encoding decodes to a command (R84, R90). -/
theorem encode_of_decode {w : Word} {i : Instr} (h : decode w = .ok i) : encode i = w := by
  unfold decode at h
  split at h
  · next hrsvd => rw [encode_of_decodeFields h, commandWord_fields hrsvd]
  · cases h

theorem eq_of_arrayAt_eq_some {base n : Nat} {f : Fin n → Reg} {w : Nat} {r : Reg} (h : arrayAt base n f w = some r) :
    ∃ k, f k = r := by
  unfold arrayAt at h
  split_ifs at h
  exact ⟨_, Option.some.inj h⟩

theorem arrayRegAt_ne_cmd (w : Nat) : arrayRegAt w ≠ some .cmd := by
  intro h
  simp only [arrayRegAt, Option.or_eq_some_iff] at h
  rcases h with h | ⟨-, h | ⟨-, h | ⟨-, h | ⟨-, h | ⟨-, h | ⟨-, h | ⟨-, h | ⟨-, h | ⟨-, h⟩⟩⟩⟩⟩⟩⟩⟩⟩ <;>
    cases eq_of_arrayAt_eq_some h <;> contradiction

theorem singleRegAt_eq_cmd {w : Nat} (h : singleRegAt w = some .cmd) : w = 1 := by
  unfold singleRegAt at h
  split at h <;> cases h
  rfl

/-- CMD is found at its offset only (R96). -/
theorem eq_cmdOffset_of_regAt {off : Offset} (hal : off.toNat % 4 = 0) (h : regAt off = some .cmd) :
    off = cmdOffset := by
  rcases Option.or_eq_some_iff.1 h with h | ⟨-, h⟩
  · have := singleRegAt_eq_cmd h
    refine BitVec.eq_of_toNat_eq ?_
    simp [cmdOffset]
    omega
  · exact absurd h (arrayRegAt_ne_cmd _)

/-! ### Who writes the reconstructed state -/

/-- What RECON carries from frame to frame and hands to the synthesis: the decoder-control bank, `PREV_NLSF` and
`LAST_GAIN_INDEX` (R23, R24, R37). -/
def reconstructed (s : State) : ControlBank × Vector (BitVec 16) 16 × BitVec 8 :=
  (s.dc, s.channel.prevNlsf, s.channel.lastGainIndex)

theorem reconstructed_eq_iff {s t : State} : reconstructed t = reconstructed s ↔
    t.channel.prevNlsf = s.channel.prevNlsf ∧ t.channel.lastGainIndex = s.channel.lastGainIndex ∧ t.dc = s.dc := by
  simp only [reconstructed, Prod.mk.injEq]
  tauto

/-- `ControlInRange` speaks of the reconstructed state alone. -/
theorem controlInRange_congr {s t : State} (h : reconstructed t = reconstructed s) (hs : ControlInRange s) :
    ControlInRange t := by
  obtain ⟨hnlsf, hgain, hdc⟩ := reconstructed_eq_iff.1 h
  unfold ControlInRange at hs ⊢
  rwa [hnlsf, hgain, hdc]

/-- An issued command that writes the reconstructed state was accepted, passed its checks and ran (R85). -/
theorem issue_reconstructed {op : BitVec 4} {check : State → Option ErrorCause} {run : State → State} {s : State}
    (h : reconstructed (issue op check run s) ≠ reconstructed s) :
    s.seq = .idle ∧ check s = none ∧ issue op check run s = run s := by
  rcases issue_cases op check run s with ⟨-, e⟩ | ⟨-, c, -, e⟩ | hrun
  · exact absurd (e ▸ rfl) h
  · exact absurd (e ▸ rfl) h
  · exact hrun

theorem issue_keeps_reconstructed {op : BitVec 4} {check : State → Option ErrorCause} {run : State → State} {s : State}
    (hrun : reconstructed (run s) = reconstructed s) : reconstructed (issue op check run s) = reconstructed s := by
  by_contra h
  obtain ⟨-, -, e⟩ := issue_reconstructed h
  exact h (e ▸ hrun)

/-- The commands that write the reconstructed state in the step that accepts them (R177, R221). -/
theorem exec_reconstructed {i : Instr} {s t : State} (he : exec i s = .next t) (h : reconstructed t ≠ reconstructed s) :
    s.seq = .idle ∧
      (i = .reset ∧ reconstructed t = reconstructed State.reset ∨
        i = .recon ∧ checkRecon s = none ∧ reconstructed t = reconstructed (reconstruct Config.rom s)) := by
  rw [exec_eq_issue] at he
  cases he
  cases i with
  | nop => exact absurd (issue_keeps_reconstructed rfl) h
  | reset =>
    obtain ⟨hidle, -, hrun⟩ := issue_reconstructed h
    exact ⟨hidle, .inl ⟨rfl, (congrArg reconstructed hrun).trans rfl⟩⟩
  | decidx mode vad => exact absurd (issue_keeps_reconstructed rfl) h
  | recon =>
    obtain ⟨hidle, hcheck, hrun⟩ := issue_reconstructed h
    exact ⟨hidle, .inr ⟨rfl, hcheck, (congrArg reconstructed hrun).trans rfl⟩⟩
  | decfrm mode vad => exact absurd (issue_keeps_reconstructed rfl) h
  | pitchmap => exact absurd (issue_keeps_reconstructed rfl) h

theorem writeCfg_reconstructed (w : Word) (s : State) : reconstructed (writeCfg w s) = reconstructed s := by
  unfold writeCfg
  split <;> rfl

theorem writeLossCnt_reconstructed (w : Word) (s : State) : reconstructed (writeLossCnt w s) = reconstructed s := by
  unfold writeLossCnt
  split <;> rfl

/-- Of the register writes only one of CMD, with the word of a command, writes the reconstructed state. -/
theorem writeReg_reconstructed {reg : Reg} {w : Word} {s t : State} (he : writeReg reg w s = .next t)
    (h : reconstructed t ≠ reconstructed s) : reg = .cmd ∧ ∃ i, decode w = .ok i ∧ exec i s = .next t := by
  unfold writeReg at he
  split at he
  · refine ⟨rfl, ?_⟩
    unfold receiveCommand at he
    split at he
    · next i hi => exact ⟨i, hi, he⟩
    · cases he
      exact absurd (issue_keeps_reconstructed rfl) h
  · cases he; exact absurd rfl h
  · cases he; exact absurd rfl h
  · cases he; exact absurd (writeCfg_reconstructed w s) h
  · cases he; exact absurd (writeLossCnt_reconstructed w s) h
  · cases he; exact absurd rfl h
  · cases he; exact absurd rfl h

/-- Of the host's accesses only a served write of a command word to CMD writes the reconstructed state. -/
theorem hostAccess_reconstructed {a : BusAccess} {s t : State} (he : hostAccess a s = .next t)
    (h : reconstructed t ≠ reconstructed s) :
    ∃ i, a = .write .word cmdOffset (encode i) ∧ exec i (setReply writeReply s) = .next t := by
  unfold hostAccess at he
  split at he
  · split at he <;> cases he <;> exact absurd rfl h
  · next width off w =>
    split at he
    · next hserved =>
      obtain ⟨hwidth, hal⟩ : width = .word ∧ off.toNat % 4 = 0 := by simpa [accessServed] using hserved
      unfold writeWord at he
      split at he
      · next reg hreg =>
        obtain ⟨rfl, i, hi, hexec⟩ := writeReg_reconstructed he h
        rw [hwidth, eq_cmdOffset_of_regAt hal hreg, ← encode_of_decode hi]
        exact ⟨i, rfl, hexec⟩
      · cases he; exact absurd rfl h
    · cases he; exact absurd rfl h

section progress
variable {c : FrameContext} {k : Nat} {v : Byte} {st st' : Staged}

theorem askGain_ne_finished : askGain c k st ≠ .finished st' := by
  unfold askGain; split <;> simp

theorem askSeed_ne_finished : askSeed st ≠ .finished st' := by simp [askSeed]

theorem askLtp_ne_finished : askLtp c k st ≠ .finished st' := by
  unfold askLtp; split_ifs <;> simp [askSeed_ne_finished]

theorem askPitch_ne_finished : askPitch c st ≠ .finished st' := by
  unfold askPitch; split_ifs <;> simp [askSeed_ne_finished]

theorem askInterp_ne_finished : askInterp c st ≠ .finished st' := by
  unfold askInterp; split <;> simp [askPitch_ne_finished]

theorem askResidual_ne_finished : askResidual c k st ≠ .finished st' := by
  unfold askResidual; split <;> simp [askInterp_ne_finished]

/-- The procedure of R111 ends with the seed, whose step stages nothing else (R132). -/
theorem absorb_eq_finished {step : SeqStep} (h : absorb c v st step = .finished st') :
    step = .seed ∧ st' = { st with bank := { st.bank with seed := v.setWidth 2 } } := by
  cases step <;> simp only [absorb] at h
  case seed => cases h; exact ⟨rfl, rfl⟩
  case gainDelta0 | gainLsb | gainDelta => exact absurd h askGain_ne_finished
  case stage1 | extension => exact absurd h askResidual_ne_finished
  case interp => exact absurd h askPitch_ne_finished
  case periodicity | ltpGain => exact absurd h askLtp_ne_finished
  case ltpScale => exact absurd h askSeed_ne_finished
  case residual =>
    split at h
    · cases h
    · exact absurd h askResidual_ne_finished
  case signalType | pitchDelta => split at h <;> cases h
  all_goals cases h

end progress

/-- The staged copies a command commits once the seed `v` has been accepted. -/
def Run.finalStaged (r : Run) (v : Byte) : Staged :=
  { r.staged with bank := { r.staged.bank with seed := v.setWidth 2 } }

/-- Everything that can follow an accepted, in-range response: another request, or after the seed the end. -/
theorem proceed_absorb_cases (rom : Rom) (r : Run) (v : Byte) (s : State) (c : FrameContext) :
    (∃ r', proceed rom r s (absorb c v r.staged r.step) = { s with seq := .running r' }) ∨
    (r.step = .seed ∧
      proceed rom r s (absorb c v r.staged r.step) = finishRun rom r (r.finalStaged v) s) := by
  cases h : absorb c v r.staged r.step with
  | ask step st => exact .inl ⟨_, rfl⟩
  | finished st =>
    obtain ⟨hstep, rfl⟩ := absorb_eq_finished h
    exact .inr ⟨hstep, rfl⟩

/-- The block's turn writes the reconstructed state only when it ends a DECFRM (R177, R222). -/
theorem blockTurn_reconstructed {rom : Rom} {s : State} (h : reconstructed (blockTurn rom s) ≠ reconstructed s) :
    ∃ r v, s.seq = .running r ∧ r.op = .decfrm ∧ r.step = .seed ∧ (blockTurn rom s).seq = .idle ∧
      reconstructed (blockTurn rom s) =
        reconstructed (reconstruct rom (commitIndices r.mode r.vad (r.finalStaged v) (goIdle s))) := by
  rcases blockTurn_cases rom s with ⟨e, -⟩ | ⟨r, v, hr, -, e⟩
  · exact absurd (congrArg reconstructed e) h
  rcases acceptResponse_cases rom r v s with ⟨-, ea⟩ | ⟨-, ea⟩
  · exact absurd (congrArg reconstructed (e.trans ea)) h
  rcases proceed_absorb_cases rom r v s (frameContext r.mode r.vad s.channel) with ⟨r', ep⟩ | ⟨hstep, ep⟩
  · exact absurd (congrArg reconstructed (e.trans (ea.trans ep))) h
  rw [e, ea, ep] at h ⊢
  unfold finishRun at h ⊢
  cases hop : r.op with
  | decidx => simp only [hop] at h; exact absurd rfl h
  | decfrm => exact ⟨r, v, hr, hop, hstep, rfl, rfl⟩

/-- The agents' steps from `s` to `t` that write the reconstructed state, each with what it writes. -/
inductive ReconstructedWrite (s t : State) : Event → Prop
  | powerOn : reconstructed t = reconstructed State.reset → ReconstructedWrite s t .powerOn
  | reset : s.seq = .idle → reconstructed t = reconstructed State.reset →
      ReconstructedWrite s t (wordWrite cmdOffset (encode .reset))
  | recon : s.seq = .idle → checkRecon s = none → reconstructed t = reconstructed (reconstruct Config.rom s) →
      ReconstructedWrite s t (wordWrite cmdOffset (encode .recon))
  | decfrm (r : Run) (v : Byte) : s.seq = .running r → r.op = .decfrm → r.step = .seed → t.seq = .idle →
      reconstructed t =
        reconstructed (reconstruct Config.rom (commitIndices r.mode r.vad (r.finalStaged v) (goIdle s))) →
      ReconstructedWrite s t .block

/-- Every step keeps the reconstructed state or is one of its four writers. -/
theorem step_reconstructed {s t : State} (hstep : step s = .next t) :
    reconstructed t = reconstructed s ∨ ∃ e es, s.agenda = e :: es ∧ ReconstructedWrite s t e := by
  rw [or_iff_not_imp_left]
  intro h
  rcases step_eq_next.1 hstep with ⟨-, rfl⟩ | ⟨e, es, hagenda, he⟩
  · exact absurd rfl h
  refine ⟨e, es, hagenda, ?_⟩
  cases e with
  | host a =>
    obtain ⟨i, rfl, hexec⟩ := hostAccess_reconstructed he h
    rcases exec_reconstructed hexec h with ⟨hidle, ⟨rfl, ht⟩ | ⟨rfl, hcheck, ht⟩⟩
    · exact .reset hidle ht
    · exact .recon hidle hcheck ht
  | respond v =>
    obtain ⟨r, -, -, rfl⟩ := answerRequest_eq_next.1 he
    exact absurd rfl h
  | block =>
    cases he
    obtain ⟨r, v, hr, hop, hseed, hidle, ht⟩ := blockTurn_reconstructed h
    exact .decfrm r v hr hop hseed hidle ht
  | powerOn => cases he; exact .powerOn rfl

/-- Settles O55: the writers of the reconstructed state. -/
theorem whoWritesTheReconstructedState : Obligations.WhoWritesTheReconstructedState := by
  intro s t hstep hchanged
  rcases step_reconstructed hstep with h | ⟨e, es, hagenda, hw⟩
  · obtain ⟨hnlsf, hgain, hdc⟩ := reconstructed_eq_iff.1 h
    simp [hnlsf, hgain, hdc] at hchanged
  refine ⟨e, es, hagenda, ?_⟩
  cases hw with
  | powerOn => exact .inr (.inr rfl)
  | reset hidle => exact .inl ⟨hidle, .inl rfl⟩
  | recon hidle => exact .inl ⟨hidle, .inr rfl⟩
  | decfrm r v hr hop hseed hidle => exact .inr (.inl ⟨rfl, r, hr, hop, hseed, hidle⟩)

theorem ltpScaleIndex_le_of_inRange {b : IndexBank} (h : IndexBankInRange b) : b.ltpScaleIndex ≤ 2 := by
  obtain ⟨-, -, -, -, -, -, -, -, hscale, -⟩ := h
  exact hscale

theorem reset_controlInRange : ControlInRange State.reset := by
  refine ⟨?_, ?_, by decide, ?_, ?_, by decide⟩ <;> decide

/-- Settles O59: the resets write 0, and RECON, alone or at the end of DECFRM, writes values in range. -/
theorem everyStepKeepsTheControlBankInRange : Obligations.EveryStepKeepsTheControlBankInRange := by
  intro s t hseq hidx hctl hstep
  have ⟨_, _, _, _, _, hgain⟩ := hctl
  rcases step_reconstructed hstep with h | ⟨e, es, -, hw⟩
  · exact controlInRange_congr h hctl
  cases hw with
  | powerOn h => exact controlInRange_congr h reset_controlInRange
  | reset _ h => exact controlInRange_congr h reset_controlInRange
  | recon _ hcheck h =>
    obtain ⟨hbank, -⟩ := hidx
    obtain ⟨hc, -⟩ := checkRecon_eq_none.1 hcheck
    exact controlInRange_congr h (reconstruct_controlInRange hc (ltpScaleIndex_le_of_inRange hbank) hgain)
  | decfrm r v hr _ _ _ h =>
    obtain ⟨hc, -⟩ := (sequencerCoherent_of_running hr).1 hseq
    obtain ⟨-, -, -, -, hrun⟩ := hidx
    simp only [hr] at hrun
    obtain ⟨hbank, -⟩ := hrun
    exact controlInRange_congr h (reconstruct_controlInRange hc (ltpScaleIndex_le_of_inRange hbank) hgain)

/-! ### What the host sees of a running command -/

/-- No register shows what a running command has staged, or where it is (R49, R67). -/
theorem readWord_of_running {s t : State} {r r' : Run} (hs : s.seq = .running r) (ht : t.seq = .running r')
    (h : t = { s with seq := t.seq, agenda := t.agenda }) (off : Offset) : readWord t off = readWord s off := by
  have hbusy : t.busy = s.busy := by rw [busy_of_running hs, busy_of_running ht]
  unfold readWord
  cases regAt off with
  | none => rfl
  | some reg =>
    cases reg with
    | status =>
      have hstatus : t.status = s.status := by rw [h]
      simp only [Reg.read, hbusy, hstatus]
    | _ => rw [h]; rfl

/-- A turn of the block after which a command still runs moves only the sequencer. -/
theorem blockTurn_of_busy {rom : Rom} {s : State} (h : (blockTurn rom s).busy = true) :
    ∃ q, blockTurn rom s = { s with seq := q } := by
  rcases blockTurn_cases rom s with ⟨e, -⟩ | ⟨r, v, -, -, e⟩
  · exact ⟨s.seq, e⟩
  rw [e] at h ⊢
  rcases acceptResponse_cases rom r v s with ⟨-, ea⟩ | ⟨-, ea⟩ <;> rw [ea] at h ⊢
  · simp [State.busy] at h
  rcases proceed_absorb_cases rom r v s (frameContext r.mode r.vad s.channel) with ⟨r', ep⟩ | ⟨-, ep⟩
  · exact ⟨_, ep⟩
  · simp [ep, State.busy] at h

theorem running_of_busy {s : State} (h : s.busy = true) : ∃ r, s.seq = .running r := by
  cases hs : s.seq with
  | idle => simp [State.busy, hs] at h
  | running r => exact ⟨r, rfl⟩

/-- Settles O26: a turn after which the command still runs moved only the sequencer. -/
theorem stagedValuesAreInvisible : Obligations.StagedValuesAreInvisible := by
  intro s t e es r hagenda he hr hstep hbusy off
  obtain ⟨r', hr'⟩ := running_of_busy hbusy
  refine readWord_of_running hr hr' ?_ off
  rw [step_cons hagenda] at hstep
  rcases he with rfl | ⟨v, rfl⟩
  · cases hstep
    obtain ⟨q, hq⟩ := blockTurn_of_busy hbusy
    rw [hq]
    rfl
  · obtain ⟨r₀, -, -, rfl⟩ := answerRequest_eq_next.1 hstep
    rfl

end Sys2Proof.Machine
end

section
/-! PROOFS. Host writes with their read-back (O49 to O51), the immediate commands (O20) and the reset state
(O53, O60). -/

namespace Sys2Proof.Machine

/-! ### Served writes and reads of one register -/

/-- A served write at a register's offset is that register's write, with the bus's answer given. -/
theorem step_wordWrite {s : State} {es : List Event} {off : Offset} {w : Word} {reg : Reg}
    (hagenda : s.agenda = wordWrite off w :: es) (hal : off.toNat % 4 = 0) (hreg : regAt off = some reg) :
    step s = writeReg reg w (afterWrite es s) := by
  have hserved : accessServed .word off = true := by simp [accessServed, hal]
  simp only [step_cons hagenda, wordWrite, agentStep, hostAccess, hserved, writeWord, hreg, if_true]
  rfl

theorem readWord_of_regAt {off : Offset} {reg : Reg} (h : regAt off = some reg) (s : State) :
    readWord s off = reg.read s := by
  simp [readWord, h]

/-! ### CFG (R44) -/

section cfgWord
variable (c : Channel)

@[simp] theorem cfgWord_fsKhz : c.cfgWord.extractLsb' 0 5 = c.fsKhz := by
  unfold Channel.cfgWord
  rw [extract_append_low _ 5 0 5] <;> simp

@[simp] theorem cfgWord_nbSubfr : c.cfgWord.extractLsb' 8 3 = c.nbSubfr := by
  unfold Channel.cfgWord
  rw [extract_append_high _ 5 8 3, extract_append_high _ 3, extract_append_low _ 3] <;> simp

@[simp] theorem cfgWord_lpcOrder : c.cfgWord.extractLsb' 16 5 = BitVec.ofNat 5 (lpcOrder c.fsKhz.toNat) := by
  unfold Channel.cfgWord
  rw [extract_append_high _ 5 16 5, extract_append_high _ 3, extract_append_high _ 3, extract_append_high _ 5,
    extract_append_low _ 5] <;> simp

@[simp] theorem cfgWord_cfgOk : c.cfgWord.getLsbD 24 = c.cfgOk := by
  simp only [Channel.cfgWord, BitVec.getLsbD_append]
  simp

@[simp] theorem cfgWord_cbWb : c.cfgWord.getLsbD 25 = cbWb c.fsKhz.toNat c.nbSubfr.toNat := by
  simp only [Channel.cfgWord, BitVec.getLsbD_append]
  simp

end cfgWord

theorem lpcOrder_field (f : BitVec 5) :
    BitVec.ofNat 5 (lpcOrder f.toNat) = if f = 16 then 16 else if f = 8 ∨ f = 12 then 10 else 0 := by
  revert f
  decide

theorem cfgOk_iff (c : Channel) : c.cfgOk = true ↔ c.fsKhz ∈ [8, 12, 16] ∧ c.nbSubfr ∈ [2, 4] := by
  unfold Channel.cfgOk
  generalize c.fsKhz = f
  generalize c.nbSubfr = n
  revert f n
  decide

theorem cbWb_iff (f : BitVec 5) (n : BitVec 3) : cbWb f.toNat n.toNat = true ↔ f = 16 ∧ n ∈ [2, 4] := by
  revert f n
  decide

/-- Settles O49: the accepted write, and the five fields of the word that CFG then reads. -/
theorem cfgWriteConfigures : Obligations.CfgWriteConfigures := by
  intro s es w hidle hagenda
  refine ⟨writeCfg w (afterWrite es s), step_wordWrite hagenda (by decide) (reg := .cfg) (by decide), ?_⟩
  rw [writeCfg_idle (s := afterWrite es s) w hidle]
  refine ⟨rfl, ?_⟩
  rw [readWord_of_regAt (reg := .cfg) (by decide)]
  simp only [Reg.read, cfgWord_fsKhz, cfgWord_nbSubfr, cfgWord_lpcOrder, cfgWord_cfgOk, cfgWord_cbWb]
  exact ⟨trivial, trivial, lpcOrder_field _, cfgOk_iff _, cbWb_iff _ _⟩

/-! ### STATUS and ERR_INFO (R42, R46) -/

theorem bitAt_and {n : Nat} (hn : n < 32) (b : Bool) (m : Word) : bitAt b n &&& m = bitAt (b && m.getLsbD n) n := by
  refine BitVec.eq_of_getLsbD_eq fun i _ => ?_
  rw [BitVec.getLsbD_and, bitAt_getLsbD b n i hn, bitAt_getLsbD _ n i hn]
  by_cases h : i = n <;> simp [h]

/-- `STATUS` under a mask: each bit is kept where the mask has it. -/
def Status.masked (st : Status) (m : Word) : Status where
  done := st.done && m.getLsbD 1
  errCmd := st.errCmd && m.getLsbD 8
  errConfig := st.errConfig && m.getLsbD 9
  errSeq := st.errSeq && m.getLsbD 10
  errSymbol := st.errSymbol && m.getLsbD 11
  errBusy := st.errBusy && m.getLsbD 12
  errArg := st.errArg && m.getLsbD 13
  errBus := st.errBus && m.getLsbD 14

theorem toWord_and (st : Status) (busy : Bool) (m : Word) :
    st.toWord busy &&& m = (st.masked m).toWord (busy && m.getLsbD 0) := by
  simp only [Status.toWord, Status.masked, BitVec.and_or_distrib_right]
  simp only [bitAt_and (show 0 < 32 by decide), bitAt_and (show 1 < 32 by decide), bitAt_and (show 8 < 32 by decide),
    bitAt_and (show 9 < 32 by decide), bitAt_and (show 10 < 32 by decide), bitAt_and (show 11 < 32 by decide),
    bitAt_and (show 12 < 32 by decide), bitAt_and (show 13 < 32 by decide), bitAt_and (show 14 < 32 by decide)]

/-- A write-1-to-clear on the word that the host reads (R42). -/
theorem clearBits_toWord (st : Status) (w : Word) (busy : Bool) :
    (st.clearBits w).toWord busy = st.toWord busy &&& ~~~(w &&& 0x7F02) := by
  rw [toWord_and]
  simp [Status.masked, Status.clearBits]

theorem toWord_eq_zero_iff (st : Status) (busy : Bool) :
    st.toWord busy = 0 ↔ busy = false ∧ st.done = false ∧ st.anyError = false := by
  constructor
  · intro h
    have hbit : ∀ i, (st.toWord busy).getLsbD i = false := by simp [h]
    simp only [statusWord_getLsbD] at hbit
    simp only [Status.anyError, Bool.or_eq_false_iff]
    exact ⟨hbit 0, hbit 1, ⟨⟨⟨⟨⟨hbit 8, hbit 9⟩, hbit 10⟩, hbit 11⟩, hbit 12⟩, hbit 13⟩, hbit 14⟩
  · rintro ⟨hbusy, hdone, herr⟩
    simp only [Status.anyError, Bool.or_eq_false_iff, and_assoc] at herr
    simp [Status.toWord, hbusy, hdone, herr, bitAt]

/-- The error bits of `STATUS` as the host reads them are the recorded errors (R42). -/
theorem toWord_and_errorMask_eq_zero_iff (st : Status) (busy : Bool) :
    st.toWord busy &&& 0x7F00 = 0 ↔ st.anyError = false := by
  rw [toWord_and, toWord_eq_zero_iff]
  simp [Status.masked, Status.anyError]

@[simp] theorem errInfo_none_toWord : ErrInfo.none.toWord = 0 := by decide

/-- Settles O51: the write clears the written bits, and `ERR_INFO` follows the error bits that are left. -/
theorem statusWriteClears : Obligations.StatusWriteClears := by
  intro s es w hagenda
  have hstatus : regAt 0x008 = some .status := by decide
  have hinfo : regAt 0x018 = some .errInfo := by decide
  refine ⟨clearStatus w (afterWrite es s), step_wordWrite hagenda (by decide) hstatus, rfl, ?_⟩
  simp only [readWord_of_regAt hstatus, readWord_of_regAt hinfo, Reg.read, toWord_and_errorMask_eq_zero_iff]
  refine ⟨clearBits_toWord s.status w s.busy, ?_⟩
  rw [clearStatus_errInfo, clearStatus_status]
  cases ((afterWrite es s).status.clearBits w).anyError with
  | false => simp
  | true => simp

/-! ### The other host writes, the immediate commands and the reset state -/

theorem flagWord_getLsbD_zero (w : Word) : flagWord (w.getLsbD 0) = w &&& 1 := by
  refine BitVec.eq_of_getLsbD_eq fun i hi => ?_
  cases i with
  | zero => simp [flagWord, zextWord]
  | succ i => simp [flagWord, zextWord]

/-- Settles O50: each of the three writes, and the read of what it stored. -/
theorem plainWritesStore : Obligations.PlainWritesStore := by
  intro s es w
  have hloss : regAt 0x014 = some .lossCnt := by decide
  have hctrl : regAt 0x00C = some .ctrl := by decide
  have hpm : regAt 0x030 = some .pmArg := by decide
  refine ⟨fun hidle hagenda => ?_, fun hagenda => ?_, fun hagenda => ?_⟩
  · refine ⟨writeLossCnt w (afterWrite es s), step_wordWrite hagenda (by decide) hloss, ?_⟩
    rw [writeLossCnt_idle (s := afterWrite es s) w hidle]
    exact ⟨rfl, readWord_of_regAt hloss _⟩
  · refine ⟨writeCtrl w (afterWrite es s), step_wordWrite hagenda (by decide) hctrl, rfl, ?_⟩
    rw [readWord_of_regAt hctrl]
    exact flagWord_getLsbD_zero w
  · exact ⟨writePmArg w (afterWrite es s), step_wordWrite hagenda (by decide) hpm, rfl, readWord_of_regAt hpm _⟩

/-- A command whose effect keeps the sequencer and sets `DONE` completes in the step that issues it, whatever its
checks answer (R48, R85). -/
theorem issue_immediate {op : BitVec 4} {check : State → Option ErrorCause} {run : State → State} {s : State}
    (hseq : (run s).seq = s.seq) (hdone : (run s).status.done = true) :
    (issue op check run s).seq = s.seq ∧ (s.seq = .idle → (issue op check run s).status.done = true) := by
  rcases issue_cases op check run s with ⟨hbusy, e⟩ | ⟨hidle, c, -, e⟩ | ⟨-, -, e⟩ <;> rw [e]
  · exact ⟨rfl, fun hidle => by simp [(busy_eq_false_iff s).2 hidle] at hbusy⟩
  · exact ⟨hidle.symm, fun _ => rfl⟩
  · exact ⟨hseq, fun _ => hdone⟩

/-- Settles O20: the effects of the four immediate commands keep the sequencer and set `DONE`. -/
theorem immediateCommandsLeaveTheSequencer : Obligations.ImmediateCommandsLeaveTheSequencer := by
  intro i s hdecidx hdecfrm
  refine ⟨_, exec_eq_issue i s, ?_⟩
  cases i with
  | nop | reset | recon | pitchmap => exact issue_immediate rfl rfl
  | decidx => exact absurd rfl hdecidx
  | decfrm => exact absurd rfl hdecfrm

/-- Settles O53: register by register; the arrays of registers are all 0. -/
theorem powerOnResetValues : Obligations.PowerOnResetValues := by
  refine ⟨fun r => ?_, rfl⟩
  cases r with
  | prevNlsf k | pmLag k | gainsIndex k | ltpIndex k | nlsfIndex k | gainQ16 k | pitchLag k | predCoef0 k | predCoef1 k
  | ltpCoefQ14 k => revert k; decide
  | _ => decide

theorem reset_indicesInRange : IndicesInRange State.reset := by
  refine ⟨?_, by decide, by decide, by decide, trivial⟩
  unfold IndexBankInRange
  decide

/-- Settles O60: the four invariants of the reset state, which is idle and holds 0 in both banks. -/
theorem invariantsHoldAtReset : Obligations.InvariantsHoldAtReset :=
  ⟨reset_errorRecordCoherent, sequencerCoherent_of_idle rfl, reset_indicesInRange, reset_controlInRange⟩

end Sys2Proof.Machine
end

section
/-! PROOFS. What host reads and ignored host writes leave unchanged (O47, O48). -/

namespace Sys2Proof.Machine

/-! ### Served reads (R66) -/

theorem accessServed_word {off : Offset} (hal : off.toNat % 4 = 0) : accessServed .word off = true := by
  simp [accessServed, hal]

/-- No register shows the agenda or the bus's last answer, the two fields of the model's own (log 1, log 2). -/
theorem readWord_of_model_fields (es : List Event) (reply : Option BusReply) (s : State) (off : Offset) :
    readWord { s with agenda := es, busReply := reply } off = readWord s off := by
  unfold readWord
  cases regAt off with
  | none => rfl
  | some reg => cases reg <;> rfl

/-- The state after a served read that returned `w`: the counterpart of `afterWrite`. -/
def afterRead (es : List Event) (w : Word) (s : State) : State :=
  { s with agenda := es, busReply := some { data := some w, error := false } }

/-- A served read answers the word at the offset and does nothing else. -/
theorem step_wordRead {s : State} {es : List Event} {off : Offset} (hagenda : s.agenda = wordRead off :: es)
    (hal : off.toNat % 4 = 0) : step s = .next (afterRead es (readWord s off) s) := by
  have hread : readWord (setAgenda es s) off = readWord s off := readWord_of_model_fields es s.busReply s off
  simp only [step_cons hagenda, wordRead, agentStep, hostAccess, accessServed_word hal, if_true, hread]
  rfl

theorem readWord_afterRead (es : List Event) (w : Word) (s : State) (off : Offset) :
    readWord (afterRead es w s) off = readWord s off :=
  readWord_of_model_fields es _ s off

/-- Settles O47: the read moves only the agenda and the bus's answer, which no register shows, so the second read
finds the same word. -/
theorem readsHaveNoSideEffect : Obligations.ReadsHaveNoSideEffect := by
  intro s off es hal hagenda
  refine ⟨afterRead es (readWord s off) s, step_wordRead hagenda hal, rfl, readWord_afterRead es _ s, ?_⟩
  rintro es' rfl
  rw [step_wordRead rfl hal, readWord_afterRead]
  rfl

/-! ### Ignored writes (R64) -/

/-- A served write at an offset that holds no register is only answered. -/
theorem step_wordWrite_of_regAt_none {s : State} {es : List Event} {off : Offset} {w : Word}
    (hagenda : s.agenda = wordWrite off w :: es) (hal : off.toNat % 4 = 0) (hnone : regAt off = none) :
    step s = .next (afterWrite es s) := by
  simp only [step_cons hagenda, wordWrite, agentStep, hostAccess, accessServed_word hal, writeWord, hnone, if_true]
  rfl

/-- A write to a read-only register has no effect. -/
theorem writeReg_of_not_writable {reg : Reg} (hro : reg.writable = false) (w : Word) (s : State) :
    writeReg reg w s = .next s := by
  cases reg with
  | cmd | status | ctrl | cfg | lossCnt | pmArg => exact absurd hro (by decide)
  | _ => rfl

/-- Settles O48: the write finds no register, or a read-only one, and the read finds none. -/
theorem ignoredWrites : Obligations.IgnoredWrites := by
  refine ⟨fun s es off w hal hro hagenda => ?_, fun s off hnone => by simp [readWord, hnone]⟩
  cases hreg : regAt off with
  | none => exact step_wordWrite_of_regAt_none hagenda hal hreg
  | some reg => exact (step_wordWrite hagenda hal hreg).trans (writeReg_of_not_writable (hro reg hreg) w _)

end Sys2Proof.Machine
end

section
/-! PROOFS. The decoder and the encoder (O1 to O3), the register map (O46), the step that receives a command (O4, O9)
and the steps that fault (O30). -/

namespace Sys2Proof.Machine

/-! ### The fields of a command word (R80) -/

section commandWord
variable (op : BitVec 4) (mode : BitVec 2) (vad : Bool)

@[simp] theorem opField_commandWord : opField (commandWord op mode vad) = op := by
  unfold opField commandWord
  rw [extract_append_low _ 4] <;> simp

@[simp] theorem modeField_commandWord : modeField (commandWord op mode vad) = mode := by
  unfold modeField commandWord
  rw [extract_append_high _ 4, extract_append_low _ 2] <;> simp

@[simp] theorem vadField_commandWord : vadField (commandWord op mode vad) = vad := by
  simp only [vadField, commandWord, BitVec.getLsbD_append]
  simp

@[simp] theorem rsvdField_commandWord : rsvdField (commandWord op mode vad) = 0 := by
  unfold rsvdField commandWord
  rw [extract_append_high _ 4, extract_append_high _ 2, extract_append_high _ 1] <;> simp

/-- The reserved bits of a command word are 0, so its other fields decide (R84). -/
theorem decode_commandWord : decode (commandWord op mode vad) = decodeFields op mode vad := by
  simp [decode]

end commandWord

/-! ### Decoding and encoding (R84, R90) -/

/-- Every command that the encoding admits comes back from its word. -/
theorem decode_encode {i : Instr} (hwf : i.wellFormed = true) : decode (encode i) = .ok i := by
  cases i with
  | nop => exact decode_commandWord 0 0 false
  | reset => exact decode_commandWord 1 0 false
  | recon => exact decode_commandWord 3 0 false
  | pitchmap => exact decode_commandWord 5 0 false
  | decidx mode vad => exact (decode_commandWord 2 mode vad).trans (if_pos hwf)
  | decfrm mode vad => exact (decode_commandWord 4 mode vad).trans (if_pos hwf)

theorem wellFormed_of_decodeFields {op : BitVec 4} {mode : BitVec 2} {vad : Bool} {i : Instr}
    (h : decodeFields op mode vad = .ok i) : i.wellFormed = true := by
  unfold decodeFields at h
  split_ifs at h with hnop hreset hdecidx hmode hrecon hdecfrm hmode hpitchmap
  · obtain ⟨-, -, rfl⟩ := bareCommand_eq_ok h; rfl
  · obtain ⟨-, -, rfl⟩ := bareCommand_eq_ok h; rfl
  · cases h; exact hmode
  · obtain ⟨-, -, rfl⟩ := bareCommand_eq_ok h; rfl
  · cases h; exact hmode
  · obtain ⟨-, -, rfl⟩ := bareCommand_eq_ok h; rfl

/-- A word decodes when its reserved bits are 0 and its other fields name a command. -/
theorem decode_eq_ok_iff {w : Word} {i : Instr} :
    decode w = .ok i ↔ rsvdField w = 0 ∧ decodeFields (opField w) (modeField w) (vadField w) = .ok i := by
  unfold decode
  split
  · next h => exact (and_iff_right h).symm
  · next h => exact iff_of_false nofun fun hfields => h hfields.1

/-- The byte lanes of a word put together again (R61). -/
theorem wordOfLanes_lanes (w : Word) :
    wordOfLanes (w.extractLsb' 0 8) (w.extractLsb' 8 8) (w.extractLsb' 16 8) (w.extractLsb' 24 8) = w := by
  unfold wordOfLanes
  rw [BitVec.extractLsb'_append_extractLsb'_eq_extractLsb' (show 24 = 16 + 8 from rfl),
    BitVec.extractLsb'_append_extractLsb'_eq_extractLsb' (show 16 = 8 + 8 from rfl),
    BitVec.extractLsb'_append_extractLsb'_eq_extractLsb' (show 8 = 0 + 8 from rfl)]
  exact BitVec.extractLsb'_eq_self

/-- The decoder over bytes reads the word of the first four lanes and leaves the rest (R61, R87). -/
theorem decodeBytes_lanesOfWord {w : Word} {i : Instr} (h : decode w = .ok i) (rest : List Byte) :
    decodeBytes (lanesOfWord w ++ rest) = .ok (i, rest) := by
  simp [lanesOfWord, decodeBytes, wordOfLanes_lanes, h]

/-- Settles O3, from the fields of a command word one way, from the cases of `decodeFields` the other way, and from
the lanes of a word being that word. -/
theorem decodeAndEncodeAgree : Obligations.DecodeAndEncodeAgree := by
  refine ⟨fun i hwf => ?_, fun w i h => ?_, fun w rest i h => decodeBytes_lanesOfWord h rest⟩
  · exact ⟨decode_encode hwf, decodeBytes_lanesOfWord (decode_encode hwf)⟩
  · exact ⟨wellFormed_of_decodeFields (decode_eq_ok_iff.1 h).2, encode_of_decode h⟩

/-! ### The legal words (R84) -/

theorem exists_bareCommand_eq_ok_iff {i : Instr} {mode : BitVec 2} {vad : Bool} :
    (∃ j, bareCommand i mode vad = .ok j) ↔ mode = 0 ∧ vad = false := by
  constructor
  · rintro ⟨j, h⟩
    obtain ⟨hmode, hvad, -⟩ := bareCommand_eq_ok h
    exact ⟨hmode, hvad⟩
  · exact fun h => ⟨i, if_pos h⟩

/-- The fields that name a command, opcode by opcode. -/
theorem exists_decodeFields_eq_ok_iff {op : BitVec 4} {mode : BitVec 2} {vad : Bool} :
    (∃ i, decodeFields op mode vad = .ok i) ↔
      (op = 2 ∨ op = 4 → mode ≠ 3) ∧ (op = 0 ∨ op = 1 ∨ op = 3 ∨ op = 5 → mode = 0 ∧ vad = false) ∧ op ≤ 5 := by
  unfold decodeFields
  split_ifs with hnop hreset hdecidx hmode hrecon hdecfrm hmode hpitchmap
  · simp [exists_bareCommand_eq_ok_iff, hnop]
  · simp [exists_bareCommand_eq_ok_iff, hreset]
  · simpa [hdecidx] using hmode
  · simpa [hdecidx] using hmode
  · simp [exists_bareCommand_eq_ok_iff, hrecon]
  · simpa [hdecfrm] using hmode
  · simpa [hdecfrm] using hmode
  · simp [exists_bareCommand_eq_ok_iff, hpitchmap]
  · have hop : ¬ op ≤ 5 := by bv_omega
    exact iff_of_false (by simp) fun ⟨_, _, hle⟩ => hop hle

/-- Settles O2: the reserved bits are tested first, and then the opcode says what the other fields must be. -/
theorem decodeAcceptsExactlyLegalWords : Obligations.DecodeAcceptsExactlyLegalWords := by
  intro w
  simp only [decode_eq_ok_iff, exists_and_left, exists_decodeFields_eq_ok_iff]
  rfl

/-- Settles O1: twenty fixed words, which the decoder evaluates. -/
theorem tableWordsDecode : Obligations.TableWordsDecode := by
  unfold Obligations.TableWordsDecode
  decide

/-! ### The register map (R96) -/

/-- The table of the map: the search at a register's offset finds that register. -/
theorem regAt_offset (reg : Reg) : regAt (BitVec.ofNat 12 reg.offset) = some reg := by
  cases reg with
  | prevNlsf k | pmLag k | gainsIndex k | ltpIndex k | nlsfIndex k | gainQ16 k | pitchLag k | predCoef0 k
  | predCoef1 k | ltpCoefQ14 k => revert k; decide
  | _ => decide

/-- The offset of a single register is that of the word that it is found at. -/
theorem offset_of_singleRegAt {w : Nat} {reg : Reg} (h : singleRegAt w = some reg) : reg.offset = 4 * w := by
  unfold singleRegAt at h
  split at h <;> cases h <;> rfl

/-- The register that an array of words at `base` shows at word `w` stands at that word's offset. -/
theorem offset_of_arrayAt {base n : Nat} {f : Fin n → Reg} {w : Nat} {reg : Reg}
    (hf : ∀ k, (f k).offset = 4 * base + 4 * k.val) (h : arrayAt base n f w = some reg) : reg.offset = 4 * w := by
  unfold arrayAt at h
  split_ifs at h
  cases h
  rw [hf]
  dsimp only
  omega

theorem offset_of_arrayRegAt {w : Nat} {reg : Reg} (h : arrayRegAt w = some reg) : reg.offset = 4 * w := by
  simp only [arrayRegAt, Option.or_eq_some_iff] at h
  rcases h with h | ⟨-, h | ⟨-, h | ⟨-, h | ⟨-, h | ⟨-, h | ⟨-, h | ⟨-, h | ⟨-, h | ⟨-, h⟩⟩⟩⟩⟩⟩⟩⟩⟩ <;>
    exact offset_of_arrayAt (fun _ => rfl) h

/-- An aligned offset shows a register only if it is that register's. -/
theorem offset_of_regAt {off : Offset} {reg : Reg} (hal : off.toNat % 4 = 0) (h : regAt off = some reg) :
    reg.offset = off.toNat := by
  have hword : reg.offset = 4 * (off.toNat / 4) := by
    rcases Option.or_eq_some_iff.1 h with h | ⟨-, h⟩
    · exact offset_of_singleRegAt h
    · exact offset_of_arrayRegAt h
  omega

theorem offset_aligned (reg : Reg) : reg.offset % 4 = 0 ∧ reg.offset < 4096 := by
  cases reg with
  | prevNlsf k | pmLag k | gainsIndex k | ltpIndex k | nlsfIndex k | gainQ16 k | pitchLag k | predCoef0 k
  | predCoef1 k | ltpCoefQ14 k => simp only [Reg.offset]; omega
  | _ => decide

/-- Settles O46: each register is found at its offset, and the search at an aligned offset finds no other. -/
theorem registerMapIsConsistent : Obligations.RegisterMapIsConsistent :=
  ⟨fun reg => ⟨regAt_offset reg, offset_aligned reg⟩, fun _ _ => offset_of_regAt⟩

/-! ### Receiving a command (R85, R241) -/

theorem receiveCommand_of_decode {w : Word} {i : Instr} (h : decode w = .ok i) (s : State) :
    receiveCommand w s = exec i s := by
  simp [receiveCommand, h]

/-- A served write of a command's word to CMD is that command's step. -/
theorem step_commandWrite {s : State} {es : List Event} {w : Word} {i : Instr}
    (hagenda : s.agenda = wordWrite cmdOffset w :: es) (hdecode : decode w = .ok i) :
    step s = exec i (afterWrite es s) :=
  (step_wordWrite hagenda rfl (regAt_offset .cmd)).trans (receiveCommand_of_decode hdecode _)

/-- The placed word of a command is the host's write of its encoding. -/
theorem withFetchWord_agenda (s : State) (w : Word) :
    (s.withFetchWord 32 w.toNat).agenda = wordWrite cmdOffset w :: s.agenda := by
  have hbits : tableBits 32 w.toNat = w.toNat := Nat.mod_eq_of_lt w.isLt
  simp [State.withFetchWord, placeCommand, hbits, commandWrite, wordWrite]

/-- Settles O4: the write is found at CMD's offset and decoded, also where `withFetchWord` has placed it. -/
theorem stepRunsTheDecodedCommand : Obligations.StepRunsTheDecodedCommand :=
  ⟨fun _ _ _ _ => step_commandWrite,
    fun s i hwf => step_commandWrite (withFetchWord_agenda s (encode i)) (decode_encode hwf)⟩

/-- A command of an idle block whose first failing check is `c` only records that error and sets `DONE` (R240). -/
theorem issue_error_of_idle {op : BitVec 4} {check : State → Option ErrorCause} {run : State → State} {s : State}
    {c : ErrorCause} (hidle : s.seq = .idle) (hc : check s = some c) :
    issue op check run s = setDone (recordError c op 0 0 s) :=
  (issue_error hidle hc).trans (endCommandWithError_of_idle hidle c op 0 0)

/-- Settles O9: the reserved mode is the first check of DECIDX and DECFRM, and the block is idle. -/
theorem reservedModeRaisesErrCmd : Obligations.ReservedModeRaisesErrCmd := by
  intro s vad i hi hidle
  have hcheck : checkModeAndConfig 3 s = some .cmd := rfl
  rcases hi with rfl | rfl
  · exact congrArg Host.Outcome.next (issue_error_of_idle hidle hcheck)
  · exact congrArg Host.Outcome.next (issue_error_of_idle hidle hcheck)

/-! ### The steps that fault (R92) -/

/-- Every command has a meaning in every state (R240: no error of the hardware stops the machine). -/
theorem exec_answers (i : Instr) (s : State) : ∃ t, exec i s = .next t := ⟨_, exec_eq_issue i s⟩

theorem receiveCommand_answers (w : Word) (s : State) : ∃ t, receiveCommand w s = .next t := by
  unfold receiveCommand
  split
  · exact exec_answers _ s
  · exact ⟨_, rfl⟩

theorem writeReg_answers (reg : Reg) (w : Word) (s : State) : ∃ t, writeReg reg w s = .next t := by
  cases reg with
  | cmd => exact receiveCommand_answers w s
  | _ => exact ⟨_, rfl⟩

theorem hostAccess_answers (a : BusAccess) (s : State) : ∃ t, hostAccess a s = .next t := by
  unfold hostAccess writeWord
  split
  · split <;> exact ⟨_, rfl⟩
  · split
    · split
      · exact writeReg_answers _ _ _
      · exact ⟨_, rfl⟩
    · exact ⟨_, rfl⟩

/-- The Symbol Decoder's turn when no request awaits an answer (R92). -/
theorem answerRequest_unrequested {s : State} (h : ∀ r, s.seq = .running r → r.response ≠ none) (v : Byte) :
    answerRequest v s = .fault .unrequestedResponse := by
  unfold answerRequest
  split
  · rfl
  · next r hr =>
    split
    · rfl
    · next hnone => exact absurd hnone (h r hr)

/-- A step goes on, or it is the turn of a Symbol Decoder whose answer no request awaits. -/
theorem step_cases (s : State) :
    (∃ t, step s = .next t ∧
      ∀ v es, s.agenda = .respond v :: es → ∃ r, s.seq = .running r ∧ r.response = none) ∨
    (step s = .fault .unrequestedResponse ∧
      ∃ v es, s.agenda = .respond v :: es ∧ ∀ r, s.seq = .running r → r.response ≠ none) := by
  cases hagenda : s.agenda with
  | nil => exact .inl ⟨s, by simp [step, runAgenda, hagenda], nofun⟩
  | cons e es =>
    rw [step_cons hagenda]
    cases e with
    | host a =>
      obtain ⟨t, ht⟩ := hostAccess_answers a (setAgenda es s)
      exact .inl ⟨t, ht, nofun⟩
    | respond v =>
      by_cases h : ∃ r, s.seq = .running r ∧ r.response = none
      · obtain ⟨r, hr, hnone⟩ := h
        exact .inl ⟨_, answerRequest_eq_next.2 ⟨r, hr, hnone, rfl⟩, fun _ _ _ => ⟨r, hr, hnone⟩⟩
      · have hno : ∀ r, s.seq = .running r → r.response ≠ none := fun r hr hnone => h ⟨r, hr, hnone⟩
        exact .inr ⟨answerRequest_unrequested (s := setAgenda es s) hno v, v, es, rfl, hno⟩
    | block => exact .inl ⟨_, rfl, nofun⟩
    | powerOn => exact .inl ⟨_, rfl, nofun⟩

/-- Settles O30: of the two outcomes of a step the first is no fault, and rules out the unrequested answer. -/
theorem onlyUnrequestedAnswersFault : Obligations.OnlyUnrequestedAnswersFault := by
  intro s
  rcases step_cases s with ⟨t, hnext, hawaited⟩ | ⟨hfault, hunrequested⟩
  · refine ⟨by simp [hnext], by simp [hnext], ?_⟩
    rintro ⟨v, es, hagenda, hno⟩
    obtain ⟨r, hr, hnone⟩ := hawaited v es hagenda
    exact absurd hnone (hno r hr)
  · exact ⟨by simp [hfault], fun _ => hunrequested, fun _ => ⟨_, hfault⟩⟩

end Sys2Proof.Machine
end

section
/-! PROOFS. The start of an exchange (O15), and the acceptance of single answers (O25, O27 to O29). -/

namespace Sys2Proof.Machine

/-! ### Starting and accepting -/

/-- DECIDX with a legal mode and configuration starts the exchange (R85, R110). -/
theorem exec_decidx_of_ready {s : State} {mode : BitVec 2} (vad : Bool) (hidle : s.seq = .idle)
    (hc : s.channel.cfgOk = true) (hm : mode ≠ 3) :
    exec (.decidx mode vad) s = .next (startRun .decidx mode vad s) := by
  rw [exec_eq_issue]
  exact congrArg _ (issue_run hidle (checkModeAndConfig_eq_none.2 ⟨hm, hc⟩))

/-- The host reads a running command as BUSY (R48). -/
theorem readWord_status_of_running {s : State} {r : Run} (h : s.seq = .running r) :
    (readWord s 0x008).getLsbD 0 = true := by
  rw [readWord_of_regAt (reg := .status) (by decide)]
  simp [Reg.read, statusWord_getLsbD, busy_of_running h]

/-- Settles O15: the state that the accepted command leaves, and its `STATUS`. -/
theorem decidxStartsTheExchange : Obligations.DecidxStartsTheExchange := fun _ _ vad hidle hc hm =>
  ⟨_, _, exec_decidx_of_ready vad hidle hc hm, rfl, rfl, rfl, rfl, rfl, rfl, rfl, rfl, readWord_status_of_running rfl⟩

/-- The block's turn with an answer waiting accepts it (R14). -/
theorem step_block {s : State} {es : List Event} {r : Run} {v : Byte} (hagenda : s.agenda = .block :: es)
    (hr : s.seq = .running r) (hv : r.response = some v) :
    step s = .next (acceptResponse Config.rom r v (setAgenda es s)) := by
  simp [step_cons hagenda, agentStep, blockTurn, hr, hv]

/-- Settles O25: the acceptance ends the command with `ErrSymbol`, whose `OP` is the running command's. -/
theorem outOfRangeSymbolAborts : Obligations.OutOfRangeSymbolAborts := by
  intro s es r v hagenda hr hv hout
  have hop : r.op.code = if r.op = .decidx then 2 else 4 := by cases r.op <;> rfl
  rw [step_block hagenda hr hv, acceptResponse, if_pos hout, ← hop]
  rfl

/-- The run that waits at `step` with the staged copies `st` (R48, R92). -/
def Run.waitingAt (rom : Rom) (ch : Channel) (r : Run) (step : SeqStep) (st : Staged) : Run :=
  { r with
    step := step
    pending := requestTid rom (frameContext r.mode r.vad ch) st step
    response := none
    staged := st }

theorem proceed_ask (rom : Rom) (r : Run) (s : State) (step : SeqStep) (st : Staged) :
    proceed rom r s (.ask step st) = { s with seq := .running (r.waitingAt rom s.channel step st) } := rfl

/-- An accepted, in-range answer that leads to another request leaves the run waiting there. -/
theorem step_block_ask {s : State} {es : List Event} {r : Run} {v : Byte} {step' : SeqStep} {st : Staged}
    (hagenda : s.agenda = .block :: es) (hr : s.seq = .running r) (hv : r.response = some v)
    (hlt : (v.toNat : Int) < alphabet r.pending)
    (hask : absorb (frameContext r.mode r.vad s.channel) v r.staged r.step = .ask step' st) :
    step s = .next { s with
      agenda := es
      seq := .running (r.waitingAt Config.rom s.channel step' st) } := by
  rw [step_block hagenda hr hv, acceptResponse, if_neg (by omega)]
  simp only [setAgenda_channel, hask, proceed_ask]
  rfl

/-! ### The alphabets of the requests (R93, R95) -/

section alphabets

@[simp] theorem alphabet_five : alphabet 5 = 8 := by decide
@[simp] theorem alphabet_six : alphabet 6 = 41 := by decide
@[simp] theorem alphabet_twentySeven : alphabet 27 = 7 := by decide
@[simp] theorem alphabet_twentyEight : alphabet 28 = 5 := by decide
@[simp] theorem alphabet_twentyNine : alphabet 29 = 21 := by decide
@[simp] theorem alphabet_thirtySeven : alphabet 37 = 3 := by decide
@[simp] theorem alphabet_fortyOne : alphabet 41 = 3 := by decide

@[simp] theorem alphabet_tidType (vad : Bool) : alphabet (tidType vad) = if vad then 4 else 2 := by
  cases vad <;> decide

@[simp] theorem alphabet_tidGainMsb (st : BitVec 2) : alphabet (tidGainMsb st) = 8 := by revert st; decide

@[simp] theorem alphabet_tidCb1 (cb : Codebook) (st : BitVec 2) : alphabet (tidCb1 cb st) = 32 := by
  cases cb <;> revert st <;> decide

@[simp] theorem alphabet_tidRes (cb : Codebook) (sel : BitVec 3) : alphabet (tidRes cb sel) = 9 := by
  cases cb <;> revert sel <;> decide

/-- The contour alphabet is the number of columns of the table (R128, R202). -/
@[simp] theorem alphabet_tidContour (fs nsf : Nat) : alphabet (tidContour fs nsf) = contourSize fs nsf := by
  unfold tidContour contourSize
  split_ifs <;> decide

theorem alphabet_tidLtpGain {per : BitVec 2} (h : per ≤ 2) : alphabet (tidLtpGain per) = ltpVectors per := by
  revert per; decide

end alphabets

/-! ### The staged vectors -/

theorem stageGain_getElem (k : Nat) (v : Int) (st : Staged) (j : Fin 4) :
    (stageGain k v st).bank.gainsIndex[j] = if k = j.val then BitVec.ofInt 8 v else st.bank.gainsIndex[j] := by
  simp [stageGain, Vector.getElem_setIfInBounds]

theorem stageNlsf_getElem (k : Nat) (v : Int) (st : Staged) (j : Fin 17) :
    (stageNlsf k v st).bank.nlsfIndex[j] = if k = j.val then BitVec.ofInt 8 v else st.bank.nlsfIndex[j] := by
  simp [stageNlsf, Vector.getElem_setIfInBounds]

theorem stageLtp_getElem (k : Nat) (v : Byte) (st : Staged) (j : Fin 4) :
    (stageLtp k v st).bank.ltpIndex[j] = if k = j.val then v.setWidth 5 else st.bank.ltpIndex[j] := by
  simp [stageLtp, Vector.getElem_setIfInBounds]

/-- A register of the index bank holds each value that its width admits. -/
theorem toInt_ofInt_of_small {v : Int} (hlo : -128 ≤ v) (hhi : v ≤ 127) : (BitVec.ofInt 8 v).toInt = v :=
  BitVec.toInt_ofInt_eq_self (by decide) (by simpa using hlo) (by simp; omega)

theorem stageNlsf_nlsfIndex_toList (k : Nat) (v : Int) (st : Staged) :
    (stageNlsf k v st).bank.nlsfIndex.toList = st.bank.nlsfIndex.toList.set k (BitVec.ofInt 8 v) := by
  simp [stageNlsf]

/-- A staged residual reads back (R120). -/
theorem stageNlsf_toList (i : Nat) (hi : i < 16) {v : Int} (hlo : -128 ≤ v) (hhi : v ≤ 127) (st : Staged) :
    (stageNlsf (i + 1) v st).bank.nlsfIndex.toList[i + 1]?.map BitVec.toInt = some v := by
  rw [stageNlsf_nlsfIndex_toList, List.getElem?_set_self (by simp; omega)]
  simp [toInt_ofInt_of_small hlo hhi]

/-! ### Gains (R114) -/

/-- The NLSF stage-1 table: its codebook by the sample rate, its voicing by bit 1 of the signal type (R95). -/
theorem tidCb1_codebookOf {fs : BitVec 5} (h : fs = 8 ∨ fs = 12 ∨ fs = 16) (st : BitVec 2) :
    tidCb1 (codebookOf fs.toNat) st = (if fs = 16 then 9 else 7) + (if st = 2 ∨ st = 3 then 1 else 0) := by
  have hvoicing : (st >>> 1).setWidth 6 = if st = 2 ∨ st = 3 then 1 else 0 := by revert st; decide
  unfold tidCb1
  rw [hvoicing]
  rcases h with rfl | rfl | rfl <;> rfl

/-- Settles O27: `absorb` stages the gain, and `askGain` compares the next subframe with the count. -/
theorem gainSymbolsAreStored : Obligations.GainSymbolsAreStored := by
  intro s es r v k hagenda hr hv hstep hpending hlt hc
  have hin : (v.toNat : Int) < alphabet r.pending := by rw [hpending, alphabet_six]; bv_omega
  have hself : (stageGain k v.toNat r.staged).bank.gainsIndex[k] = v := by
    rw [stageGain_getElem, if_pos rfl]
    simp
  have hother : ∀ j : Fin 4, j ≠ k →
      (stageGain k v.toNat r.staged).bank.gainsIndex[j] = r.staged.bank.gainsIndex[j] := fun j hj => by
    rw [stageGain_getElem, if_neg fun h => hj (Fin.ext h.symm)]
  by_cases hk : k.val + 1 < s.channel.nbSubfr.toNat
  · refine ⟨_, step_block_ask (step' := .gainDelta (k.val + 1)) hagenda hr hv hin ?_, hself, hother, rfl, ?_⟩
    · rw [hstep]; exact if_pos hk
    · rw [if_pos hk]; exact ⟨rfl, rfl⟩
  · refine ⟨_, step_block_ask (step' := .stage1) hagenda hr hv hin ?_, hself, hother, rfl, ?_⟩
    · rw [hstep]; exact if_neg hk
    · rw [if_neg hk]; exact ⟨rfl, tidCb1_codebookOf (cfgOk_cases hc).1 _⟩

/-! ### Residuals (R119, R120) -/

/-- The steps that can follow the residuals, none of which stages one (R121 to R132). -/
def SeqStep.afterResiduals : SeqStep → Bool
  | .interp | .pitchDelta | .pitchHigh | .seed => true
  | _ => false

theorem askPitch_afterResiduals (c : FrameContext) (st : Staged) : ∃ step' st', askPitch c st = .ask step' st' ∧
    step'.afterResiduals = true ∧ st'.bank = st.bank := by
  unfold askPitch
  split_ifs <;> exact ⟨_, _, rfl, rfl, rfl⟩

theorem askInterp_afterResiduals (c : FrameContext) (st : Staged) : ∃ step' st', askInterp c st = .ask step' st' ∧
    step'.afterResiduals = true ∧ st'.bank.nlsfIndex = st.bank.nlsfIndex := by
  unfold askInterp
  split
  · exact ⟨_, _, rfl, rfl, rfl⟩
  · obtain ⟨step', st', hask, hafter, hbank⟩ := askPitch_afterResiduals c _
    exact ⟨step', st', hask, hafter, by rw [hbank]⟩

/-- Once a coefficient is staged, the next one's residual or a later step is asked for (R118). -/
theorem askResidual_cases (c : FrameContext) (i : Nat) (st : Staged) : ∃ step' st',
    askResidual c i st = .ask step' st' ∧ (step' = .residual i ∨ step'.afterResiduals = true) ∧
      st'.bank.nlsfIndex = st.bank.nlsfIndex := by
  unfold askResidual
  split
  · exact ⟨_, _, rfl, .inl rfl, rfl⟩
  · obtain ⟨step', st', hask, hafter, hnlsf⟩ := askInterp_afterResiduals c st
    exact ⟨step', st', hask, .inr hafter, hnlsf⟩

/-- An accepted answer that stages coefficient `i` is followed by no further request for it. -/
theorem step_block_residual {s : State} {es : List Event} {r : Run} {v : Byte} {i : Nat} {x : Int}
    (hagenda : s.agenda = .block :: es) (hr : s.seq = .running r) (hv : r.response = some v)
    (hin : (v.toNat : Int) < alphabet r.pending) (hi : i < 16) (hlo : -128 ≤ x) (hhi : x ≤ 127)
    (habsorb : absorb (frameContext r.mode r.vad s.channel) v r.staged r.step =
      askResidual (frameContext r.mode r.vad s.channel) (i + 1) (stageNlsf (i + 1) x r.staged)) :
    ∃ r', step s = .next { s with agenda := es, seq := .running r' } ∧ r'.response = none ∧
      r'.step ≠ .residual i ∧ (∀ j y, r'.step ≠ .extension j y) ∧
      r'.staged.bank.nlsfIndex.toList[i + 1]?.map BitVec.toInt = some x := by
  obtain ⟨step', st', hask, hstep', hnlsf⟩ :=
    askResidual_cases (frameContext r.mode r.vad s.channel) (i + 1) (stageNlsf (i + 1) x r.staged)
  refine ⟨_, step_block_ask hagenda hr hv hin (habsorb.trans hask), rfl, ?_, ?_, ?_⟩
  · rintro (rfl : step' = _)
    rcases hstep' with h | h
    · simp at h
    · cases h
  · rintro j y (rfl : step' = _)
    rcases hstep' with h | h
    · simp at h
    · cases h
  · exact hnlsf ▸ stageNlsf_toList i hi hlo hhi r.staged

/-- The extension is subtracted after 0 and added after 8, and 4 is taken off (R119, R120). -/
theorem absorb_extension {c : FrameContext} {v x : Byte} {st : Staged} {i : Nat} (hx : x = 0 ∨ x = 8) :
    absorb c v st (.extension i x) = askResidual c (i + 1)
      (stageNlsf (i + 1) (if x = 0 then -(v.toNat : Int) - 4 else 4 + v.toNat) st) := by
  have hfull : (if x = 0 then (x.toNat : Int) - v.toNat else x.toNat + v.toNat) - nlsfQuantMaxAmplitude =
      if x = 0 then -(v.toNat : Int) - 4 else 4 + v.toNat := by
    rcases hx with rfl | rfl
    · simp [nlsfQuantMaxAmplitude]
    · simp [nlsfQuantMaxAmplitude]; omega
  rw [← hfull]
  rfl

/-- Settles O28: an escape asks for its extension; every other answer stages the coefficient. -/
theorem escapeTakesOneExtension : Obligations.EscapeTakesOneExtension := by
  intro s es r v i hagenda hr hv hi
  refine ⟨fun hstep halpha hlt => ?_, fun x hstep hx hpending hlt => ?_⟩
  · have hin : (v.toNat : Int) < alphabet r.pending := by rw [halpha]; bv_omega
    by_cases hesc : v = 0 ∨ v = 8
    · refine ⟨_, step_block_ask (step' := .extension i v) (st := r.staged) hagenda hr hv hin ?_, rfl, ?_⟩
      · rw [hstep]; exact if_pos hesc
      · rw [if_pos hesc]; exact ⟨rfl, rfl, rfl⟩
    · simp only [if_neg hesc]
      refine step_block_residual hagenda hr hv hin hi (by omega) (by bv_omega) ?_
      rw [hstep]; exact if_neg hesc
  · have hin : (v.toNat : Int) < alphabet r.pending := by rw [hpending, alphabet_twentySeven]; bv_omega
    have hv7 : v.toNat < 7 := hlt
    obtain ⟨r', hnext, hresponse, -, hrest⟩ := step_block_residual hagenda hr hv hin hi
      (by split <;> omega) (by split <;> omega) (hstep ▸ absorb_extension hx)
    exact ⟨r', hnext, hresponse, hrest⟩

/-! ### The delta pitch lag (R124, R125) -/

/-- The lag index of a delta, on the registers' own widths (R125). -/
theorem ofInt_deltaLag (p : BitVec 16) (v : Byte) :
    BitVec.ofInt 16 (p.toInt + v.toNat - 9) = p + v.setWidth 16 - 9 := by
  rw [Int.sub_eq_add_neg, BitVec.ofInt_add, BitVec.ofInt_add, BitVec.ofInt_toInt, BitVec.ofInt_natCast,
    BitVec.ofNat_toNat, BitVec.sub_eq_add_neg]
  rfl

/-- Settles O29: the two branches of the delta step. -/
theorem deltaPitchOrFallback : Obligations.DeltaPitchOrFallback := by
  intro s es r v hagenda hr hv hstep hpending hlt
  have hin : (v.toNat : Int) < alphabet r.pending := by rw [hpending, alphabet_twentyNine]; bv_omega
  by_cases hzero : v = 0
  · refine ⟨_, step_block_ask (step' := .pitchHigh) (st := r.staged) hagenda hr hv hin ?_, rfl, ?_⟩
    · rw [hstep]; exact if_pos hzero
    · rw [if_pos hzero]; exact ⟨rfl, rfl, rfl⟩
  · have hask : absorb (frameContext r.mode r.vad s.channel) v r.staged r.step =
        .ask .contour (stageLag (s.channel.prevLagIndex.toInt + v.toNat - 9) r.staged) := by
      rw [hstep]; exact if_neg hzero
    refine ⟨_, step_block_ask hagenda hr hv hin hask, rfl, ?_⟩
    rw [if_neg hzero]
    exact ⟨rfl, ofInt_deltaLag _ _, rfl⟩

end Sys2Proof.Machine
end

section
/-! PROOFS. Every step keeps the index fields in range (O58). -/

namespace Sys2Proof.Machine

/-! ### The index bank (R32) -/

section bank
variable {b : IndexBank} {st : Staged}

/-- The combined index of R112 is at most 5, so its type is at most 2. -/
theorem stageSignalType_bank_inRange {ix : Byte} (hix : ix.toNat ≤ 5) (hper : st.bank.perIndex = 0)
    (h : IndexBankInRange st.bank) : IndexBankInRange (stageSignalType ix st).bank := by
  obtain ⟨-, hgain0, hgain, hnlsf0, hnlsf, hinterp, hcontour, hperiod, hscale, hltp, -⟩ := h
  have htype : ix.extractLsb' 1 2 ≤ 2 := by
    rw [BitVec.le_def, BitVec.extractLsb'_toNat, Nat.shiftRight_eq_div_pow]
    simp
    omega
  exact ⟨htype, hgain0, hgain, hnlsf0, hnlsf, hinterp, hcontour, hperiod, hscale, hltp, fun _ => hper⟩

/-- Gain index 0 has the range of an absolute gain, the others that of a delta (R113, R114). -/
theorem stageGain_bank_inRange {k : Nat} {v : Int} (hv : InRange v 0 63) (hk : k ≠ 0 → v ≤ 40)
    (h : IndexBankInRange st.bank) : IndexBankInRange (stageGain k v st).bank := by
  obtain ⟨htype, hgain0, hgain, hrest⟩ := h
  have hval : (BitVec.ofInt 8 v).toInt = v := toInt_ofInt_of_small (by omega) (by omega)
  refine ⟨htype, ?_, fun j hj => ?_, hrest⟩
  · change InRange (stageGain k v st).bank.gainsIndex[(0 : Fin 4)].toInt 0 63
    rw [stageGain_getElem]
    split
    · exact hval.symm ▸ hv
    · exact hgain0
  · rw [stageGain_getElem]
    split
    · next heq => exact hval.symm ▸ ⟨hv.1, hk fun h0 => hj (Fin.ext (heq.symm.trans h0))⟩
    · exact hgain j hj

/-- NLSF index 0 names one of 32 vectors, the others are residuals in -10 to 10 (R116, R120). -/
theorem stageNlsf_bank_inRange {k : Nat} {v : Int} (h0 : k = 0 → InRange v 0 31) (hk : k ≠ 0 → InRange v (-10) 10)
    (h : IndexBankInRange st.bank) : IndexBankInRange (stageNlsf k v st).bank := by
  obtain ⟨htype, hgain0, hgain, hnlsf0, hnlsf, hrest⟩ := h
  have hval : (BitVec.ofInt 8 v).toInt = v := by
    by_cases hzero : k = 0
    · obtain ⟨hlo, hhi⟩ := h0 hzero
      exact toInt_ofInt_of_small (by omega) (by omega)
    · obtain ⟨hlo, hhi⟩ := hk hzero
      exact toInt_ofInt_of_small (by omega) (by omega)
  refine ⟨htype, hgain0, hgain, ?_, fun j hj => ?_, hrest⟩
  · change InRange (stageNlsf k v st).bank.nlsfIndex[(0 : Fin 17)].toInt 0 31
    rw [stageNlsf_getElem]
    split
    · next heq => exact hval.symm ▸ h0 heq
    · exact hnlsf0
  · rw [stageNlsf_getElem]
    split
    · next heq => exact hval.symm ▸ hk fun hzero => hj (Fin.ext (heq.symm.trans hzero))
    · exact hnlsf j hj

/-- Every LTP index names a vector of the periodicity's codebook (R129). -/
theorem stageLtp_bank_inRange {k : Nat} {v : Byte} (hv : v.toNat < ltpVectors st.bank.perIndex)
    (h : IndexBankInRange st.bank) : IndexBankInRange (stageLtp k v st).bank := by
  obtain ⟨htype, hgain0, hgain, hnlsf0, hnlsf, hinterp, hcontour, hperiod, hscale, hltp, hunvoiced⟩ := h
  refine ⟨htype, hgain0, hgain, hnlsf0, hnlsf, hinterp, hcontour, hperiod, hscale, fun j => ?_, hunvoiced⟩
  rw [stageLtp_getElem]
  split
  · rw [BitVec.toNat_setWidth]
    exact lt_of_le_of_lt (Nat.mod_le _ _) hv
  · exact hltp j

theorem bank_inRange_of_interp {x : BitVec 3} (hx : x ≤ 4) (h : IndexBankInRange b) :
    IndexBankInRange { b with nlsfInterpCoef := x } := by
  obtain ⟨htype, hgain0, hgain, hnlsf0, hnlsf, -, hrest⟩ := h
  exact ⟨htype, hgain0, hgain, hnlsf0, hnlsf, hx, hrest⟩

theorem bank_inRange_of_contour {x : BitVec 6} (hx : x ≤ 33) (h : IndexBankInRange b) :
    IndexBankInRange { b with contourIndex := x } := by
  obtain ⟨htype, hgain0, hgain, hnlsf0, hnlsf, hinterp, -, hrest⟩ := h
  exact ⟨htype, hgain0, hgain, hnlsf0, hnlsf, hinterp, hx, hrest⟩

/-- The periodicity is staged before the LTP indices, each of which is in range of the smallest codebook (R129). -/
theorem bank_inRange_of_periodicity {x : BitVec 2} (hx : x ≤ 2) (hvoiced : b.signalType = 2) (hper : b.perIndex = 0)
    (h : IndexBankInRange b) : IndexBankInRange { b with perIndex := x } := by
  obtain ⟨htype, hgain0, hgain, hnlsf0, hnlsf, hinterp, hcontour, -, hscale, hltp, -⟩ := h
  refine ⟨htype, hgain0, hgain, hnlsf0, hnlsf, hinterp, hcontour, hx, hscale, fun k => ?_, fun h => absurd hvoiced h⟩
  have hsmall := hltp k
  rw [hper] at hsmall
  exact lt_of_lt_of_le hsmall (Nat.mul_le_mul_left 8 (Nat.pow_le_pow_right (by decide) (Nat.zero_le _)))

theorem bank_inRange_of_ltpScale {x : BitVec 2} (hx : x ≤ 2) (h : IndexBankInRange b) :
    IndexBankInRange { b with ltpScaleIndex := x } := by
  obtain ⟨htype, hgain0, hgain, hnlsf0, hnlsf, hinterp, hcontour, hperiod, -, hrest⟩ := h
  exact ⟨htype, hgain0, hgain, hnlsf0, hnlsf, hinterp, hcontour, hperiod, hx, hrest⟩

end bank

/-- A symbol below a bound fits in the register it is staged in. -/
theorem setWidth_le_of_toNat_le {w : Nat} {v : Byte} {x : BitVec w} (hv : v.toNat ≤ x.toNat) : v.setWidth w ≤ x := by
  rw [BitVec.le_def, BitVec.toNat_setWidth]
  exact le_trans (Nat.mod_le _ _) hv

/-! ### The exchange -/

/-- A property of the steps, of what follows an answer: a completed procedure has the values of its last step, the
seed's (R132). -/
def Progress.Holds (P : SeqStep → Staged → Prop) : Progress → Prop
  | .ask step st => P step st
  | .finished st => P .seed st

/-- The staged copies are in range, with a contour table of `columns` columns (R32, R128). -/
def CopiesInRange (columns : Nat) (st : Staged) : Prop :=
  IndexBankInRange st.bank ∧ st.prevSignalType ≤ 2 ∧ st.bank.contourIndex.toNat < columns

/-- `RunInRange`, of a step and the staged copies alone. -/
def StagedInRange (columns : Nat) (step : SeqStep) (st : Staged) : Prop :=
  CopiesInRange columns st ∧ StepInRange step ∧ (step.beforeLtp = true → st.bank.perIndex = 0) ∧
    (step.voicedOnly = true → st.bank.signalType = 2)

theorem runInRange_iff (s : State) (r : Run) : RunInRange s r ↔
    StagedInRange (contourSize s.channel.fsKhz.toNat s.channel.nbSubfr.toNat) r.step r.staged := by
  unfold RunInRange StagedInRange CopiesInRange
  tauto

section ask
variable {c : FrameContext} {columns : Nat} {st : Staged}

theorem askSeed_inRange (h : CopiesInRange columns st) : (askSeed st).Holds (StagedInRange columns) := by
  obtain ⟨hbank, -, hcolumn⟩ := h
  exact ⟨⟨hbank, hbank.1, hcolumn⟩, trivial, nofun, nofun⟩

theorem askLtp_inRange {k : Nat} (h : CopiesInRange columns st) (hvoiced : st.bank.signalType = 2) :
    (askLtp c k st).Holds (StagedInRange columns) := by
  unfold askLtp
  split_ifs
  · exact ⟨h, trivial, nofun, fun _ => hvoiced⟩
  · exact ⟨h, trivial, nofun, fun _ => hvoiced⟩
  · obtain ⟨hbank, hprev, hcolumn⟩ := h
    exact askSeed_inRange ⟨bank_inRange_of_ltpScale (by decide) hbank, hprev, hcolumn⟩

theorem askPitch_inRange (h : CopiesInRange columns st) (hper : st.bank.perIndex = 0) :
    (askPitch c st).Holds (StagedInRange columns) := by
  unfold askPitch
  split_ifs with hvoiced
  · exact ⟨h, trivial, fun _ => hper, fun _ => hvoiced⟩
  · exact ⟨h, trivial, fun _ => hper, fun _ => hvoiced⟩
  · exact askSeed_inRange h

theorem askInterp_inRange (h : CopiesInRange columns st) (hper : st.bank.perIndex = 0) :
    (askInterp c st).Holds (StagedInRange columns) := by
  unfold askInterp
  split_ifs
  · exact ⟨h, trivial, fun _ => hper, nofun⟩
  · obtain ⟨hbank, hprev, hcolumn⟩ := h
    exact askPitch_inRange ⟨bank_inRange_of_interp (by decide) hbank, hprev, hcolumn⟩ hper

theorem askResidual_inRange {i : Nat} (h : CopiesInRange columns st) (hper : st.bank.perIndex = 0) :
    (askResidual c i st).Holds (StagedInRange columns) := by
  unfold askResidual
  split_ifs
  · exact ⟨h, trivial, fun _ => hper, nofun⟩
  · exact askInterp_inRange h hper

theorem askGain_inRange {k : Nat} (hk : 1 ≤ k) (h : CopiesInRange columns st) (hper : st.bank.perIndex = 0) :
    (askGain c k st).Holds (StagedInRange columns) := by
  unfold askGain
  split_ifs
  · exact ⟨h, hk, fun _ => hper, nofun⟩
  · exact ⟨h, trivial, fun _ => hper, nofun⟩

end ask

/-- An in-range answer keeps the staged copies in range (R136). -/
theorem absorb_inRange {rom : Rom} {c : FrameContext} {v : Byte} {st : Staged} {step : SeqStep}
    (hin : (v.toNat : Int) < alphabet (requestTid rom c st step))
    (h : StagedInRange (contourSize c.fs c.nsf) step st) :
    (absorb c v st step).Holds (StagedInRange (contourSize c.fs c.nsf)) := by
  obtain ⟨hcopies, hstep, hper, hvoiced⟩ := h
  have ⟨hbank, hprev, hcolumn⟩ := hcopies
  cases step <;> simp only [requestTid] at hin
  case signalType =>
    have hix : (v + if c.vad then 2 else 0).toNat ≤ 5 := by
      cases hvad : c.vad <;> simp [hvad] at hin ⊢ <;> omega
    have hcopies' : CopiesInRange (contourSize c.fs c.nsf) (stageSignalType (v + if c.vad then 2 else 0) st) :=
      ⟨stageSignalType_bank_inRange hix (hper rfl) hbank, hprev, hcolumn⟩
    simp only [absorb]
    split
    · exact ⟨hcopies', trivial, hper, nofun⟩
    · exact ⟨hcopies', trivial, hper, nofun⟩
  case gainDelta0 =>
    rw [alphabet_six] at hin
    exact askGain_inRange le_rfl
      ⟨stageGain_bank_inRange ⟨by omega, by omega⟩ (by omega) hbank, hprev, hcolumn⟩ (hper rfl)
  case gainMsb =>
    rw [alphabet_tidGainMsb] at hin
    exact ⟨hcopies, by simp only [StepInRange]; bv_omega, hper, nofun⟩
  case gainLsb msb =>
    rw [alphabet_five] at hin
    have hmsb : msb.toNat < 8 := hstep
    refine askGain_inRange le_rfl ⟨stageGain_bank_inRange ?_ (absurd rfl) hbank, hprev, hcolumn⟩ (hper rfl)
    simp only [InRange, shl]
    omega
  case gainDelta k =>
    rw [alphabet_six] at hin
    exact askGain_inRange (by omega)
      ⟨stageGain_bank_inRange ⟨by omega, by omega⟩ (by omega) hbank, hprev, hcolumn⟩ (hper rfl)
  case stage1 =>
    rw [alphabet_tidCb1] at hin
    exact askResidual_inRange
      ⟨stageNlsf_bank_inRange (fun _ => ⟨by omega, by omega⟩) (absurd rfl) hbank, hprev, hcolumn⟩ (hper rfl)
  case residual i =>
    rw [alphabet_tidRes] at hin
    simp only [absorb]
    split
    · next hescape => exact ⟨hcopies, hescape, hper, nofun⟩
    · refine askResidual_inRange ⟨stageNlsf_bank_inRange (by omega) (fun _ => ?_) hbank, hprev, hcolumn⟩ (hper rfl)
      simp only [InRange, nlsfQuantMaxAmplitude]
      omega
  case extension i x =>
    rw [alphabet_twentySeven] at hin
    rw [absorb_extension hstep]
    refine askResidual_inRange ⟨stageNlsf_bank_inRange (by omega) (fun _ => ?_) hbank, hprev, hcolumn⟩ (hper rfl)
    unfold InRange
    split <;> omega
  case interp =>
    rw [alphabet_twentyEight] at hin
    exact askPitch_inRange
      ⟨bank_inRange_of_interp (setWidth_le_of_toNat_le (by bv_omega)) hbank, hprev, hcolumn⟩ (hper rfl)
  case pitchDelta =>
    simp only [absorb]
    split
    · exact ⟨hcopies, trivial, hper, hvoiced⟩
    · exact ⟨hcopies, trivial, hper, hvoiced⟩
  case pitchHigh => exact ⟨hcopies, trivial, hper, hvoiced⟩
  case pitchLow h => exact ⟨hcopies, trivial, hper, hvoiced⟩
  case contour =>
    rw [alphabet_tidContour] at hin
    have hsize : contourSize c.fs c.nsf ≤ 34 := by unfold contourSize; split_ifs <;> decide
    refine ⟨⟨bank_inRange_of_contour (setWidth_le_of_toNat_le (by bv_omega)) hbank, hprev, ?_⟩, trivial,
      hper, hvoiced⟩
    rw [BitVec.toNat_setWidth]
    omega
  case periodicity =>
    rw [alphabet_thirtySeven] at hin
    have hle : v.setWidth 2 ≤ (2 : BitVec 2) := setWidth_le_of_toNat_le (by bv_omega)
    exact askLtp_inRange
      ⟨bank_inRange_of_periodicity hle (hvoiced rfl) (hper rfl) hbank, hprev, hcolumn⟩ (hvoiced rfl)
  case ltpGain k =>
    have ⟨_, _, _, _, _, _, _, hperiod, _⟩ := hbank
    rw [alphabet_tidLtpGain hperiod] at hin
    exact askLtp_inRange ⟨stageLtp_bank_inRange (by omega) hbank, hprev, hcolumn⟩ (hvoiced rfl)
  case ltpScale =>
    rw [alphabet_fortyOne] at hin
    exact askSeed_inRange
      ⟨bank_inRange_of_ltpScale (setWidth_le_of_toNat_le (by bv_omega)) hbank, hprev, hcolumn⟩
  case seed => exact ⟨hcopies, trivial, nofun, nofun⟩

/-! ### Every step -/

theorem initialStaged_inRange (ch : Channel) (hprev : ch.prevSignalType ≤ 2) :
    StagedInRange (contourSize ch.fsKhz.toNat ch.nbSubfr.toNat) .signalType (initialStaged ch) := by
  have hsize : 0 < contourSize ch.fsKhz.toNat ch.nbSubfr.toNat := by unfold contourSize; split_ifs <;> decide
  exact ⟨⟨reset_indicesInRange.1, hprev, hsize⟩, trivial, fun _ => rfl, nofun⟩

theorem indicesInRange_of_idle {s : State} (hidle : s.seq = .idle) (hbank : IndexBankInRange s.idx)
    (hprev : s.channel.prevSignalType ≤ 2) (hmode : s.idxStatus.mode ≤ 2)
    (hvalid : s.idxStatus.valid = true → s.channel.cfgOk = true ∧
      s.idx.contourIndex.toNat < contourSize s.channel.fsKhz.toNat s.channel.nbSubfr.toNat) : IndicesInRange s :=
  ⟨hbank, hprev, hmode, hvalid, by simp [hidle]⟩

/-- What RECON writes to the index bank (R35): the factor is kept or 4, the periodicity of a frame that is not voiced
is 0 as it was. -/
theorem reconstruct_inRange {rom : Rom} {s : State} (hidle : s.seq = .idle) (h : IndicesInRange s) :
    IndicesInRange (reconstruct rom s) := by
  obtain ⟨hbank, hprev, hmode, -, -⟩ := h
  have hper : (reconCompute rom s.channel s.idx s.idxStatus.mode).perIndex = s.idx.perIndex := by
    have ⟨_, _, _, _, _, _, _, _, _, _, hunvoiced⟩ := hbank
    simp only [reconCompute]
    split
    · rfl
    · next h => exact (hunvoiced h).symm
  have hfactor : (reconCompute rom s.channel s.idx s.idxStatus.mode).nlsfInterpCoef ≤ 4 := by
    have ⟨_, _, _, _, _, hinterp, _⟩ := hbank
    simp only [reconCompute, interpFactor]
    split
    · decide
    · exact hinterp
  refine indicesInRange_of_idle hidle ?_ hprev hmode nofun
  rw [reconstruct, commitRecon_idx, hper]
  exact bank_inRange_of_interp hfactor hbank

theorem goIdle_inRange {s : State} (h : IndicesInRange s) : IndicesInRange (goIdle s) := by
  obtain ⟨hbank, hprev, hmode, hvalid, -⟩ := h
  exact indicesInRange_of_idle rfl hbank hprev hmode hvalid

theorem stagedInRange_of_running {s : State} {r : Run} (hr : s.seq = .running r) (h : IndicesInRange s) :
    StagedInRange (contourSize s.channel.fsKhz.toNat s.channel.nbSubfr.toNat) r.step r.staged := by
  obtain ⟨-, -, -, -, hrun⟩ := h
  simp only [hr] at hrun
  exact (runInRange_iff s r).1 hrun

/-- The sequencer may be given any run whose staged copies are in range. -/
theorem withRun_inRange {s : State} {r : Run} (h : IndicesInRange s)
    (hr : StagedInRange (contourSize s.channel.fsKhz.toNat s.channel.nbSubfr.toNat) r.step r.staged) :
    IndicesInRange { s with seq := .running r } := by
  obtain ⟨hbank, hprev, hmode, hvalid, -⟩ := h
  exact ⟨hbank, hprev, hmode, hvalid, (runInRange_iff s r).2 hr⟩

theorem commitIndices_inRange {s : State} {mode : BitVec 2} (vad : Bool) {st : Staged} (hidle : s.seq = .idle)
    (hc : s.channel.cfgOk = true) (hm : mode ≠ 3)
    (h : CopiesInRange (contourSize s.channel.fsKhz.toNat s.channel.nbSubfr.toNat) st) :
    IndicesInRange (commitIndices mode vad st s) := by
  obtain ⟨hbank, hprev, hcolumn⟩ := h
  have hmode : mode ≤ 2 := by revert mode; decide
  exact indicesInRange_of_idle hidle hbank hprev hmode fun _ => ⟨hc, hcolumn⟩

/-- Whatever follows an answer, a request or one of the two commits, the indices are in range (R130, R222). -/
theorem proceed_inRange {rom : Rom} {s : State} {r : Run} {p : Progress} (h : IndicesInRange s)
    (hc : s.channel.cfgOk = true) (hm : r.mode ≠ 3)
    (hp : p.Holds (StagedInRange (contourSize s.channel.fsKhz.toNat s.channel.nbSubfr.toNat))) :
    IndicesInRange (proceed rom r s p) := by
  cases p with
  | ask step st => exact withRun_inRange (r := r.waitingAt rom s.channel step st) h hp
  | finished st =>
    obtain ⟨hcopies, -⟩ := hp
    have hcommitted : IndicesInRange (commitIndices r.mode r.vad st (goIdle s)) :=
      commitIndices_inRange r.vad rfl hc hm hcopies
    simp only [proceed, finishRun]
    split
    · exact hcommitted
    · exact reconstruct_inRange (s := commitIndices r.mode r.vad st (goIdle s)) rfl hcommitted

theorem writeCfg_inRange {s : State} (w : Word) (h : IndicesInRange s) : IndicesInRange (writeCfg w s) := by
  cases hs : s.seq with
  | idle =>
    obtain ⟨hbank, hprev, hmode, -, -⟩ := h
    rw [writeCfg_idle w hs]
    exact indicesInRange_of_idle hs hbank hprev hmode nofun
  | running r => rw [writeCfg_running w hs]; exact h

theorem writeLossCnt_inRange {s : State} (w : Word) (h : IndicesInRange s) : IndicesInRange (writeLossCnt w s) := by
  cases hs : s.seq with
  | idle => rw [writeLossCnt_idle w hs]; exact h
  | running r => rw [writeLossCnt_running w hs]; exact h

theorem resetChannel_inRange {s : State} (hidle : s.seq = .idle) : IndicesInRange (resetChannel s) := by
  obtain ⟨hbank, hprev, hmode, hvalid, -⟩ := reset_indicesInRange
  exact indicesInRange_of_idle hidle hbank hprev hmode hvalid

theorem startRun_inRange {s : State} (op : RunOp) (mode : BitVec 2) (vad : Bool) (h : IndicesInRange s) :
    IndicesInRange (startRun op mode vad s) := by
  have ⟨_, hprev, _⟩ := h
  exact withRun_inRange h (initialStaged_inRange s.channel hprev)

/-- The accepted answer is in range of the pending table, which the coherent sequencer says is the step's own. -/
theorem acceptedAnswer_inRange {s : State} {r : Run} {v : Byte} (hr : s.seq = .running r)
    (hin : (v.toNat : Int) < alphabet r.pending) (hseq : SequencerCoherent Config.rom s) (h : IndicesInRange s) :
    IndicesInRange (proceed Config.rom r s (absorb (frameContext r.mode r.vad s.channel) v r.staged r.step)) := by
  obtain ⟨hc, hm, hpending, -⟩ := (sequencerCoherent_of_running hr).1 hseq
  exact proceed_inRange h hc hm (absorb_inRange (c := frameContext r.mode r.vad s.channel) (hpending ▸ hin)
    (stagedInRange_of_running hr h))

theorem indicesInRange_keptByOps : KeptByOps fun s => SequencerCoherent Config.rom s ∧ IndicesInRange s where
  agenda es s := And.imp (sequencerCoherent_keptByOps.agenda es s) id
  reply r s := And.imp (sequencerCoherent_keptByOps.reply r s) id
  done s := And.imp (sequencerCoherent_keptByOps.done s) id
  record c op s hop hc := And.imp (sequencerCoherent_keptByOps.record c op s hop hc) id
  abort r v s hr := And.imp (sequencerCoherent_keptByOps.abort r v s hr) goIdle_inRange
  clear w s := And.imp (sequencerCoherent_keptByOps.clear w s) id
  cfg w s := And.imp (sequencerCoherent_keptByOps.cfg w s) (writeCfg_inRange w)
  lossCnt w s := And.imp (sequencerCoherent_keptByOps.lossCnt w s) (writeLossCnt_inRange w)
  ctrl w s := And.imp (sequencerCoherent_keptByOps.ctrl w s) id
  pmArg w s := And.imp (sequencerCoherent_keptByOps.pmArg w s) id
  channelReset s hidle := And.imp (sequencerCoherent_keptByOps.channelReset s hidle) fun _ => resetChannel_inRange hidle
  start op mode vad s hidle hm hc :=
    And.imp (sequencerCoherent_keptByOps.start op mode vad s hidle hm hc) (startRun_inRange op mode vad)
  recon s hidle hc hv := And.imp (sequencerCoherent_keptByOps.recon s hidle hc hv) (reconstruct_inRange hidle)
  pitchmap s := And.imp (sequencerCoherent_keptByOps.pitchmap s) id
  answer r v s hr h :=
    ⟨sequencerCoherent_keptByOps.answer r v s hr h.1,
      withRun_inRange (r := { r with response := some v }) h.2 (stagedInRange_of_running (r := r) hr h.2 :)⟩
  accept r v s hr hv hin h :=
    ⟨sequencerCoherent_keptByOps.accept r v s hr hv hin h.1, acceptedAnswer_inRange hr hin h.1 h.2⟩
  powerOn s := And.imp (sequencerCoherent_keptByOps.powerOn s) fun _ => reset_indicesInRange

/-- Settles O58: each shared operation keeps the indices in range, given the coherent sequencer that it keeps too. -/
theorem everyStepKeepsTheIndicesInRange : Obligations.EveryStepKeepsTheIndicesInRange :=
  fun _ _ hseq h hstep => (indicesInRange_keptByOps.step ⟨hseq, h⟩ hstep).2

end Sys2Proof.Machine
end

section
/-! PROOFS. The sequencer runs the procedure of R111 (O21). -/

namespace Sys2Proof.Machine

/-! ### The exchange as a program -/

/-- What the sequencer does with a list of answers, as a function of the list: the meeting point of the procedure of
R111, which draws its symbols, and of the block, which accepts them one by one. -/
def exchangeOn (rom : Rom) (c : FrameContext) : List Byte → Progress → Except DrawStop (Staged × List Byte)
  | answers, .finished st => .ok (st, answers)
  | [], .ask step st => .error (.waiting (requestTid rom c st step))
  | v :: rest, .ask step st =>
    if alphabet (requestTid rom c st step) ≤ (v.toNat : Int) then
      .error (.outOfRange (requestTid rom c st step) v rest)
    else exchangeOn rom c rest (absorb c v st step)

/-- `exchangeOn` as a program that draws symbols. -/
def exchange (rom : Rom) (c : FrameContext) (p : Progress) : Draw Staged := fun answers => exchangeOn rom c answers p

section exchange
variable (rom : Rom) (c : FrameContext)

theorem exchange_finished (st : Staged) : exchange rom c (.finished st) = pure st := by
  funext answers
  cases answers <;> rfl

theorem exchange_ask (step : SeqStep) (st : Staged) : exchange rom c (.ask step st) =
    symbolRead (requestTid rom c st step) >>= fun v => exchange rom c (absorb c v st step) := by
  funext answers
  cases answers with
  | nil => rfl
  | cons v rest =>
    simp only [exchange, exchangeOn, bind, StateT.bind, symbolRead]
    split <;> rfl

/-! ### Each part of the procedure, and the requests it stands for (R111) -/

/-- The end of the procedure (R132, R133). -/
theorem exchange_askSeed (st : Staged) : exchange rom c (askSeed st) =
    symbolRead 31 >>= fun v =>
      pure { st with prevSignalType := st.bank.signalType, bank := { st.bank with seed := v.setWidth 2 } } := by
  simp only [askSeed, exchange_ask, requestTid, absorb, exchange_finished]

theorem exchange_ltpScale (st : Staged) :
    (drawLtpScale c st >>= fun st => exchange rom c (askSeed st)) = exchange rom c (askLtp c c.nsf st) := by
  unfold drawLtpScale askLtp
  rw [if_neg (lt_irrefl _)]
  split
  · simp only [bind_assoc, pure_bind, exchange_ask, requestTid, absorb]
  · simp only [pure_bind]

/-- The LTP gains of `n` more subframes, up to the last. -/
theorem exchange_ltpGains (n k : Nat) (hn : k + n = c.nsf) (st : Staged) :
    ((List.range' k n).foldlM drawLtp st >>= fun st => exchange rom c (askLtp c c.nsf st)) =
      exchange rom c (askLtp c k st) := by
  induction n generalizing k st with
  | zero => rw [← hn]; simp
  | succ n ih =>
    have hask : askLtp c k st = .ask (.ltpGain k) st := if_pos (by omega)
    rw [hask, List.range'_succ, List.foldlM_cons]
    simp only [bind_assoc, pure_bind, exchange_ask, requestTid, absorb, drawLtp, ih (k + 1) (by omega)]

/-- From the contour index on (R128 to R131). -/
theorem exchange_contour (st : Staged) : exchange rom c (.ask .contour st) = (do
    let contour ← symbolRead (tidContour c.fs c.nsf)
    let st := { st with bank := { st.bank with contourIndex := contour.setWidth 6 } }
    let per ← symbolRead 37
    let st := { st with bank := { st.bank with perIndex := per.setWidth 2 } }
    let st ← (List.range c.nsf).foldlM drawLtp st
    let st ← drawLtpScale c st
    exchange rom c (askSeed st)) := by
  simp only [exchange_ask, requestTid, absorb, ← exchange_ltpGains rom c c.nsf 0 (by omega), ← exchange_ltpScale,
    List.range_eq_range']

theorem exchange_absoluteLag (st : Staged) :
    (drawAbsoluteLag c st >>= fun st => exchange rom c (.ask .contour st)) = exchange rom c (.ask .pitchHigh st) := by
  simp only [drawAbsoluteLag, exchange_ask _ _ .pitchHigh, exchange_ask _ _ (.pitchLow _), requestTid, absorb,
    bind_assoc, pure_bind]

/-- The pitch and LTP fields of a voiced frame. -/
theorem exchange_voiced {st : Staged} (hvoiced : st.bank.signalType = 2) :
    (drawVoiced c st >>= fun st => exchange rom c (askSeed st)) = exchange rom c (askPitch c st) := by
  have hlag : (drawLag c st >>= fun st => exchange rom c (.ask .contour st)) = exchange rom c (askPitch c st) := by
    unfold drawLag askPitch
    rw [if_pos hvoiced]
    split
    · rw [exchange_ask _ _ .pitchDelta, bind_assoc]
      congr 1
      funext v
      simp only [absorb]
      split
      · exact exchange_absoluteLag rom c st
      · rw [pure_bind]
    · exact exchange_absoluteLag rom c st
  rw [← hlag]
  simp only [drawVoiced, exchange_contour, bind_assoc]

/-- Step 5 of R111: a frame that is not voiced goes on to the seed at once (R122, R127). -/
theorem exchange_pitch (st : Staged) :
    (if st.bank.signalType = 2 then drawVoiced c st >>= fun st => exchange rom c (askSeed st)
      else exchange rom c (askSeed { st with prevLagIndex := c.prevLagIndex })) = exchange rom c (askPitch c st) := by
  split
  · next hvoiced => exact exchange_voiced rom c hvoiced
  · next h => rw [askPitch, if_neg h]

theorem exchange_interp (st : Staged) :
    (drawInterp c st >>= fun st => exchange rom c (askPitch c st)) = exchange rom c (askInterp c st) := by
  unfold drawInterp askInterp
  split
  · simp only [bind_assoc, pure_bind, exchange_ask, requestTid, absorb]
  · simp only [pure_bind]

/-- The residual of one coefficient, with its extension (R118 to R120). -/
theorem exchange_residual {i : Nat} (hi : i < lpcOrder c.fs) (st : Staged) :
    (drawResidual rom (codebookOf c.fs) st i >>= fun st => exchange rom c (askResidual c (i + 1) st)) =
      exchange rom c (askResidual c i st) := by
  have hask : askResidual c i st = .ask (.residual i) st := if_pos hi
  rw [hask, exchange_ask, drawResidual, bind_assoc]
  congr 1
  funext x
  by_cases h0 : x = 0
  · simp [h0, absorb, exchange_ask, requestTid]
  · by_cases h8 : x = 8
    · simp [h8, absorb, exchange_ask, requestTid]
    · simp only [h0, h8, absorb, or_self, if_false, pure_bind]

theorem exchange_residuals (n i : Nat) (hn : i + n = lpcOrder c.fs) (st : Staged) :
    ((List.range' i n).foldlM (drawResidual rom (codebookOf c.fs)) st >>= fun st => exchange rom c (askInterp c st)) =
      exchange rom c (askResidual c i st) := by
  induction n generalizing i st with
  | zero =>
    have hask : askResidual c i st = askInterp c st := if_neg (by omega)
    simp [hask]
  | succ n ih =>
    rw [List.range'_succ, List.foldlM_cons, bind_assoc]
    simp only [ih (i + 1) (by omega)]
    exact exchange_residual rom c (by omega) st

/-- From the NLSF stage-1 index on (R116, R118). -/
theorem exchange_stage1 (st : Staged) : exchange rom c (.ask .stage1 st) = (do
    let v ← symbolRead (tidCb1 (codebookOf c.fs) st.bank.signalType)
    let st ← (List.range (lpcOrder c.fs)).foldlM (drawResidual rom (codebookOf c.fs)) (stageNlsf 0 v.toNat st)
    exchange rom c (askInterp c st)) := by
  simp only [exchange_ask, requestTid, absorb, ← exchange_residuals rom c (lpcOrder c.fs) 0 (by omega),
    List.range_eq_range']

/-- The gains of `n` more subframes, up to the last (R114). -/
theorem exchange_gains (n k : Nat) (hn : n = c.nsf - k) (st : Staged) :
    ((List.range' k n).foldlM drawGain st >>= fun st => exchange rom c (.ask .stage1 st)) =
      exchange rom c (askGain c k st) := by
  induction n generalizing k st with
  | zero =>
    have hask : askGain c k st = .ask .stage1 st := if_neg (by omega)
    simp [hask]
  | succ n ih =>
    have hask : askGain c k st = .ask (.gainDelta k) st := if_pos (by omega)
    rw [hask, List.range'_succ, List.foldlM_cons]
    simp only [bind_assoc, pure_bind, exchange_ask _ _ (.gainDelta k), requestTid, absorb, drawGain,
      ih (k + 1) (by omega)]

/-- Gain index 0, by its one or two symbols (R113). -/
theorem exchange_gain0 (st : Staged) :
    (drawGain0 c st >>= fun st => exchange rom c (askGain c 1 st)) =
      exchange rom c (.ask (if conditionalMode c.mode then .gainDelta0 else .gainMsb) st) := by
  unfold drawGain0
  split
  · simp only [exchange_ask _ _ .gainDelta0, requestTid, absorb, bind_assoc, pure_bind]
  · simp only [exchange_ask _ _ .gainMsb, exchange_ask _ _ (.gainLsb _), requestTid, absorb, bind_assoc, pure_bind]

end exchange

theorem absorb_signalType (c : FrameContext) (ix : Byte) (st : Staged) : absorb c ix st .signalType =
    .ask (if conditionalMode c.mode then .gainDelta0 else .gainMsb)
      (stageSignalType (ix + if c.vad then 2 else 0) st) := by
  simp only [absorb]
  split <;> rfl

/-- The procedure of R111 is the exchange that starts with the signal type. -/
theorem indexProcedure_eq_exchange (rom : Rom) (mode : BitVec 2) (vad : Bool) (ch : Channel) :
    indexProcedure rom mode vad ch = exchange rom (frameContext mode vad ch) (.ask .signalType (initialStaged ch)) := by
  rw [exchange_ask, indexProcedure]
  congr 1
  funext ix
  simp only [absorb_signalType, ← exchange_gain0, ← exchange_gains rom _ _ 1 rfl, exchange_stage1, ← exchange_interp,
    ← exchange_pitch, exchange_askSeed, pure_bind]
  rfl

end Sys2Proof.Machine
end

section
/-! PROOFS. What a completed procedure leaves undecoded (O24), and the block's run of an exchange (O21). -/

namespace Sys2Proof.Machine

/-! ### Induction along an exchange -/

/-- What every in-range answer keeps, of the answers still to come and of the next request, holds at the end. -/
theorem exchange_induction {rom : Rom} {c : FrameContext} {P : List Byte → Progress → Prop}
    (hkeep : ∀ v rest step st, (v.toNat : Int) < alphabet (requestTid rom c st step) →
      P (v :: rest) (.ask step st) → P rest (absorb c v st step))
    {answers rest : List Byte} {p : Progress} {st : Staged} (h : P answers p)
    (hrun : exchangeOn rom c answers p = .ok (st, rest)) : P rest (.finished st) := by
  induction answers generalizing p with
  | nil =>
    cases p with
    | ask step st => cases hrun
    | finished st => cases hrun; exact h
  | cons v answers ih =>
    cases p with
    | ask step st =>
      simp only [exchangeOn] at hrun
      split at hrun
      · cases hrun
      · exact ih (hkeep _ _ _ _ (by omega) h) hrun
    | finished st => cases hrun; exact h

/-! ### The fields that a frame does not decode (R135) -/

/-- The entries past the subframe count and past the first `n` coefficients are 0, and so is an LTP scale index that
the mode does not code (R131, R135). -/
def UndecodedZero (c : FrameContext) (n : Nat) (st : Staged) : Prop :=
  (∀ k : Fin 4, c.nsf ≤ k.val → st.bank.gainsIndex[k] = 0) ∧ (∀ k : Fin 4, c.nsf ≤ k.val → st.bank.ltpIndex[k] = 0) ∧
    (∀ k : Fin 17, n < k.val → st.bank.nlsfIndex[k] = 0) ∧ (c.mode ≠ 0 → st.bank.ltpScaleIndex = 0)

/-- No pitch or LTP field is staged, and the channel's lag index is kept (R127, R135). -/
def PitchUntouched (c : FrameContext) (st : Staged) : Prop :=
  st.bank.lagIndex = 0 ∧ st.bank.contourIndex = 0 ∧ st.bank.perIndex = 0 ∧ st.bank.ltpScaleIndex = 0 ∧
    (∀ k : Fin 4, st.bank.ltpIndex[k] = 0) ∧ st.prevLagIndex = c.prevLagIndex

/-- The steps up to the interpolation factor, with `n` coefficients staged. -/
def Opening (c : FrameContext) (n : Nat) (st : Staged) : Prop := UndecodedZero c n st ∧ PitchUntouched c st

/-- The steps after the interpolation factor, which is 4 where it is not coded (R121). -/
def Interpolated (c : FrameContext) (st : Staged) : Prop :=
  UndecodedZero c (lpcOrder c.fs) st ∧ (c.nsf ≠ 4 → st.bank.nlsfInterpCoef = 4)

/-- The steps of a voiced frame once its lag index is staged (R127). -/
def LagStaged (c : FrameContext) (st : Staged) : Prop :=
  Interpolated c st ∧ st.bank.signalType = 2 ∧ st.prevLagIndex = st.bank.lagIndex

/-- What a frame has staged when its procedure waits at a step. -/
def StagedAt (c : FrameContext) (step : SeqStep) (st : Staged) : Prop :=
  match step with
  | .signalType | .gainDelta0 | .gainMsb | .gainLsb _ | .stage1 => Opening c 0 st
  | .gainDelta k => Opening c 0 st ∧ k < c.nsf
  | .residual i | .extension i _ => Opening c i st ∧ i < lpcOrder c.fs
  | .interp => Opening c (lpcOrder c.fs) st ∧ c.nsf = 4
  | .pitchDelta | .pitchHigh | .pitchLow _ => Interpolated c st ∧ st.bank.signalType = 2
  | .contour | .periodicity => LagStaged c st
  | .ltpGain k => LagStaged c st ∧ k < c.nsf
  | .ltpScale => LagStaged c st ∧ c.mode = 0
  | .seed => Interpolated c st ∧ (st.bank.signalType ≠ 2 → PitchUntouched c st) ∧
      (st.bank.signalType = 2 → st.prevLagIndex = st.bank.lagIndex) ∧ st.prevSignalType = st.bank.signalType

section stage
variable {c : FrameContext} {n k : Nat} {v : Int} {st : Staged}

theorem stageGain_opening (hk : k < c.nsf) (h : Opening c n st) : Opening c n (stageGain k v st) := by
  obtain ⟨⟨hgains, hrest⟩, hpitch⟩ := h
  refine ⟨⟨fun j hj => ?_, hrest⟩, hpitch⟩
  rw [stageGain_getElem, if_neg (by omega), hgains j hj]

theorem stageNlsf_opening {m : Nat} (hnm : n ≤ m) (hk : k ≤ m) (h : Opening c n st) :
    Opening c m (stageNlsf k v st) := by
  obtain ⟨⟨hgains, hltps, hnlsf, hscale⟩, hpitch⟩ := h
  refine ⟨⟨hgains, hltps, fun j hj => ?_, hscale⟩, hpitch⟩
  rw [stageNlsf_getElem, if_neg (by omega), hnlsf j (by omega)]

theorem stageLtp_lagStaged {v : Byte} (hk : k < c.nsf) (h : LagStaged c st) : LagStaged c (stageLtp k v st) := by
  obtain ⟨⟨⟨hgains, hltps, hrest⟩, hinterp⟩, hlag⟩ := h
  refine ⟨⟨⟨hgains, fun j hj => ?_, hrest⟩, hinterp⟩, hlag⟩
  rw [stageLtp_getElem, if_neg (by omega), hltps j hj]

theorem ltpScale_lagStaged {x : BitVec 2} (hx : c.mode ≠ 0 → x = 0) (h : LagStaged c st) :
    LagStaged c { st with bank := { st.bank with ltpScaleIndex := x } } := by
  obtain ⟨⟨⟨hgains, hltps, hnlsf, -⟩, hinterp⟩, hlag⟩ := h
  exact ⟨⟨⟨hgains, hltps, hnlsf, hx⟩, hinterp⟩, hlag⟩

theorem stageLag_lagStaged (hvoiced : st.bank.signalType = 2) (h : Interpolated c st) :
    LagStaged c (stageLag v st) := ⟨h, hvoiced, rfl⟩

end stage

section ask
variable {c : FrameContext} {k : Nat} {st : Staged}

theorem askSeed_of_lagStaged (h : LagStaged c st) : (askSeed st).Holds (StagedAt c) := by
  obtain ⟨hinterp, hvoiced, hlag⟩ := h
  exact ⟨hinterp, absurd hvoiced, fun _ => hlag, rfl⟩

theorem askLtp_stagedAt (h : LagStaged c st) : (askLtp c k st).Holds (StagedAt c) := by
  unfold askLtp
  split_ifs with hk hmode
  · exact ⟨h, hk⟩
  · exact ⟨h, by simpa [decodesLtpScale] using hmode⟩
  · exact askSeed_of_lagStaged (ltpScale_lagStaged (fun _ => rfl) h)

theorem askPitch_stagedAt (h : Interpolated c st) (hpitch : PitchUntouched c st) :
    (askPitch c st).Holds (StagedAt c) := by
  unfold askPitch
  split_ifs with hvoiced
  · exact ⟨h, hvoiced⟩
  · exact ⟨h, hvoiced⟩
  · obtain ⟨hlag, hcontour, hper, hscale, hltps, -⟩ := hpitch
    exact ⟨h, fun _ => ⟨hlag, hcontour, hper, hscale, hltps, rfl⟩, fun hv => absurd hv hvoiced, rfl⟩

theorem askInterp_stagedAt (h : Opening c (lpcOrder c.fs) st) : (askInterp c st).Holds (StagedAt c) := by
  unfold askInterp
  split_ifs with hnsf
  · exact ⟨h, hnsf⟩
  · exact askPitch_stagedAt ⟨h.1, fun _ => rfl⟩ h.2

theorem askResidual_stagedAt (hk : k ≤ lpcOrder c.fs) (h : Opening c k st) :
    (askResidual c k st).Holds (StagedAt c) := by
  unfold askResidual
  split_ifs with hlt
  · exact ⟨h, hlt⟩
  · obtain rfl : k = lpcOrder c.fs := by omega
    exact askInterp_stagedAt h

theorem askGain_stagedAt (h : Opening c 0 st) : (askGain c k st).Holds (StagedAt c) := by
  unfold askGain
  split_ifs with hlt
  · exact ⟨h, hlt⟩
  · exact h

end ask

/-- Each answer stages its own field only. -/
theorem absorb_stagedAt {c : FrameContext} {v : Byte} {st : Staged} {step : SeqStep} (hnsf : 0 < c.nsf)
    (h : StagedAt c step st) : (absorb c v st step).Holds (StagedAt c) := by
  cases step with
  | signalType =>
    rw [absorb_signalType]
    split
    · exact h
    · exact h
  | gainDelta0 => exact askGain_stagedAt (stageGain_opening hnsf h)
  | gainMsb => exact h
  | gainLsb msb => exact askGain_stagedAt (stageGain_opening hnsf h)
  | gainDelta k => exact askGain_stagedAt (stageGain_opening h.2 h.1)
  | stage1 => exact askResidual_stagedAt (Nat.zero_le _) (stageNlsf_opening le_rfl le_rfl h)
  | residual i =>
    simp only [absorb]
    split
    · exact h
    · exact askResidual_stagedAt h.2 (stageNlsf_opening (Nat.le_succ i) le_rfl h.1)
  | extension i x => exact askResidual_stagedAt h.2 (stageNlsf_opening (Nat.le_succ i) le_rfl h.1)
  | interp =>
    obtain ⟨⟨hzero, hpitch⟩, hfour⟩ := h
    exact askPitch_stagedAt ⟨hzero, absurd hfour⟩ hpitch
  | pitchDelta =>
    simp only [absorb]
    split
    · exact h
    · exact stageLag_lagStaged h.2 h.1
  | pitchHigh => exact h
  | pitchLow hi => exact stageLag_lagStaged h.2 h.1
  | contour => exact h
  | periodicity => exact askLtp_stagedAt h
  | ltpGain k => exact askLtp_stagedAt (stageLtp_lagStaged h.2 h.1)
  | ltpScale => exact askSeed_of_lagStaged (ltpScale_lagStaged (absurd h.2) h.1)
  | seed => exact h

theorem initialStaged_opening (mode : BitVec 2) (vad : Bool) (ch : Channel) :
    Opening (frameContext mode vad ch) 0 (initialStaged ch) := by
  have hgains : ∀ k : Fin 4, State.reset.idx.gainsIndex[k] = 0 := by decide
  have hltps : ∀ k : Fin 4, State.reset.idx.ltpIndex[k] = 0 := by decide
  have hnlsf : ∀ k : Fin 17, State.reset.idx.nlsfIndex[k] = 0 := by decide
  exact ⟨⟨fun k _ => hgains k, fun k _ => hltps k, fun k _ => hnlsf k, fun _ => rfl⟩, rfl, rfl, rfl, rfl, hltps, rfl⟩

theorem frameContext_nsf_pos (mode : BitVec 2) (vad : Bool) {ch : Channel} (hc : ch.cfgOk = true) :
    0 < (frameContext mode vad ch).nsf := by
  rcases (cfgOk_cases hc).2 with h | h <;> simp [frameContext, h]

/-- A completed procedure has staged what the seed's step says, whatever answers are left. -/
theorem indexProcedure_stagedAt {rom : Rom} {mode : BitVec 2} {vad : Bool} {ch : Channel} {answers rest : List Byte}
    {st : Staged} (hc : ch.cfgOk = true) (hrun : (indexProcedure rom mode vad ch).run answers = .ok (st, rest)) :
    StagedAt (frameContext mode vad ch) .seed st := by
  rw [indexProcedure_eq_exchange] at hrun
  exact exchange_induction (P := fun _ p => p.Holds (StagedAt (frameContext mode vad ch)))
    (p := .ask .signalType (initialStaged ch)) (fun _ _ _ _ _ h => absorb_stagedAt (frameContext_nsf_pos mode vad hc) h)
    (initialStaged_opening mode vad ch) hrun

/-- Settles O24: what the seed's step has staged. -/
theorem undecodedFieldsAreZero : Obligations.UndecodedFieldsAreZero := by
  intro rom mode vad ch answers st hc hm hrun
  obtain ⟨⟨⟨hgains, hltps, hnlsf, hscale⟩, hinterp⟩, hunvoiced, hlag, -⟩ := indexProcedure_stagedAt hc hrun
  exact ⟨fun k hk => ⟨hgains k hk, hltps k hk⟩, hnlsf, fun hnsf => hinterp (by simp [frameContext, hnsf]), hscale,
    hunvoiced, hlag⟩

/-! ### The block's run of an exchange (R92, R130, R134) -/

theorem step_respond {s : State} {es : List Event} {r : Run} {v : Byte} (hagenda : s.agenda = .respond v :: es)
    (hr : s.seq = .running r) (hnone : r.response = none) :
    step s = .next { s with agenda := es, seq := .running { r with response := some v } } :=
  (step_cons hagenda).trans (answerRequest_eq_next.2 ⟨r, hr, hnone, rfl⟩)

theorem runSteps_succ {s t : State} (h : step s = .next t) (k : Nat) : runSteps (k + 1) s = runSteps k t := by
  simp [runSteps, h]

/-- `s` with the run `r` waiting at a step, and the events that answer `answers` to come. -/
def State.exchanging (s : State) (r : Run) (step : SeqStep) (st : Staged) (answers : List Byte) : State :=
  { s with agenda := symbolAgenda answers, seq := .running (r.waitingAt Config.rom s.channel step st) }

section exchanging
variable (s : State) (r : Run) (step : SeqStep) (st : Staged) (v : Byte) (vs : List Byte) (k : Nat)

/-- `r` at a step with an answer waiting there. -/
def Run.answered (r : Run) : Run := { r.waitingAt Config.rom s.channel step st with response := some v }

/-- An answer's arrival and its acceptance are two steps. -/
theorem runSteps_exchanging_cons : runSteps (k + 2) (s.exchanging r step st (v :: vs)) =
    runSteps k (acceptResponse Config.rom (r.answered s step st v) v
      { s with agenda := symbolAgenda vs, seq := .running (r.answered s step st v) }) :=
  (runSteps_succ (step_respond rfl rfl rfl) (k + 1)).trans (runSteps_succ (step_block rfl rfl rfl) k)

theorem acceptResponse_answered_outOfRange
    (hout : alphabet (requestTid Config.rom (frameContext r.mode r.vad s.channel) st step) ≤ (v.toNat : Int)) :
    acceptResponse Config.rom (r.answered s step st v) v
        { s with agenda := symbolAgenda vs, seq := .running (r.answered s step st v) } =
      endCommandWithError .symbol r.op.code (requestTid Config.rom (frameContext r.mode r.vad s.channel) st step) v
        (setAgenda (symbolAgenda vs) s) :=
  if_pos hout

/-- What follows an in-range answer depends on the operands of the run alone, not on where it waited. -/
theorem acceptResponse_answered_inRange
    (hin : ¬ alphabet (requestTid Config.rom (frameContext r.mode r.vad s.channel) st step) ≤ (v.toNat : Int)) :
    acceptResponse Config.rom (r.answered s step st v) v
        { s with agenda := symbolAgenda vs, seq := .running (r.answered s step st v) } =
      proceed Config.rom r (setAgenda (symbolAgenda vs) s)
        (absorb (frameContext r.mode r.vad s.channel) v st step) := by
  refine Eq.trans (if_neg hin) ?_
  change proceed _ _ _ (absorb (frameContext r.mode r.vad s.channel) v st step) = _
  cases absorb (frameContext r.mode r.vad s.channel) v st step <;> rfl

end exchanging

/-- The states that the end of an exchange stands for, from `s` with the run `r`. -/
def EndsAs (s : State) (r : Run) (after : Host.Outcome State Fault Refusal) :
    Except DrawStop (Staged × List Byte) → Prop
  | .error (.waiting tid) => ∃ step st, after = .next (s.exchanging r step st []) ∧
      requestTid Config.rom (frameContext r.mode r.vad s.channel) st step = tid
  | .error (.outOfRange tid v unread) => unread = [] →
      after = .next (endCommandWithError .symbol r.op.code tid v (setAgenda [] s))
  | .ok (st, unread) => unread = [] → after = .next (finishRun Config.rom r st (setAgenda [] s))

/-- The block, fed the answers one by one, ends as the exchange of those answers ends. -/
theorem runSteps_exchange (s : State) (r : Run) (answers : List Byte) (step : SeqStep) (st : Staged) :
    EndsAs s r (runSteps (2 * answers.length) (s.exchanging r step st answers))
      (exchangeOn Config.rom (frameContext r.mode r.vad s.channel) answers (.ask step st)) := by
  induction answers generalizing step st with
  | nil => exact ⟨step, st, rfl, rfl⟩
  | cons v vs ih =>
    rw [List.length_cons, Nat.mul_succ, runSteps_exchanging_cons, exchangeOn]
    split
    · next hout =>
      rw [acceptResponse_answered_outOfRange s r step st v vs hout]
      rintro rfl
      rfl
    · next hin =>
      rw [acceptResponse_answered_inRange s r step st v vs hin]
      cases absorb (frameContext r.mode r.vad s.channel) v st step with
      | ask step' st' => exact ih step' st'
      | finished st' =>
        cases vs with
        | nil => exact fun _ => rfl
        | cons => exact nofun

/-- The run that a command with these operands starts (R110). -/
def firstRun (op : RunOp) (mode : BitVec 2) (vad : Bool) (ch : Channel) : Run where
  op := op
  mode := mode
  vad := vad
  step := .signalType
  pending := tidType vad
  response := none
  staged := initialStaged ch

/-- A started command, fed the answers one by one, ends as the procedure of R111 on them ends. -/
theorem runSteps_startRun (op : RunOp) (mode : BitVec 2) (vad : Bool) (s : State) (answers : List Byte) :
    EndsAs s (firstRun op mode vad s.channel)
      (runSteps (2 * answers.length) { startRun op mode vad s with agenda := symbolAgenda answers })
      ((indexProcedure Config.rom mode vad s.channel).run answers) := by
  rw [indexProcedure_eq_exchange]
  exact runSteps_exchange s (firstRun op mode vad s.channel) answers .signalType (initialStaged s.channel)

/-- Settles O21: the block ends as the procedure, whose last step has staged the signal type as the previous one. -/
theorem decidxRunsTheProcedure : Obligations.DecidxRunsTheProcedure := by
  intro s mode vad answers hidle hc hm
  refine ⟨_, exec_decidx_of_ready vad hidle hc hm, ?_⟩
  have hend := runSteps_startRun .decidx mode vad s answers
  cases hrun : (indexProcedure Config.rom mode vad s.channel).run answers with
  | error stop =>
    rw [hrun] at hend
    cases stop with
    | waiting tid =>
      obtain ⟨step, st, hafter, htid⟩ := hend
      exact ⟨_, hafter, rfl, rfl, rfl, htid, rfl⟩
    | outOfRange tid v unread =>
      intro after hunread
      rw [show after = _ from hend hunread, endCommandWithError_of_idle (s := setAgenda [] s) hidle]
      rfl
  | ok result =>
    obtain ⟨st, unread⟩ := result
    obtain ⟨-, -, -, hprev⟩ := indexProcedure_stagedAt hc hrun
    rw [hrun] at hend
    intro after hunread
    rw [show after = _ from hend hunread, ← hprev, finishRun, goIdle_of_idle (s := setAgenda [] s) hidle]
    rfl

end Sys2Proof.Machine
end

section
/-! PROOFS. The number of symbol requests of a frame (O23). -/

namespace Sys2Proof.Machine

/-! ### The escapes among the staged coefficients (R119, R120) -/

theorem lpcOrder_le (fs : Nat) : lpcOrder fs ≤ 16 := by
  unfold lpcOrder
  split_ifs <;> decide

/-- NLSF index 0 names the vector and is no coefficient. -/
theorem escapeCount_stageNlsf_zero (v : Int) (st : Staged) (order : Nat) :
    escapeCount (stageNlsf 0 v st).bank order = escapeCount st.bank order := by
  rw [escapeCount, stageNlsf_nlsfIndex_toList, List.drop_set, if_pos (by decide)]
  rfl

/-- A coefficient staged with magnitude 4 or more counts as an escape. -/
theorem escapeCount_stageNlsf_succ {i order : Nat} {v : Int} {st : Staged} (hi : i < order) (horder : order ≤ 16)
    (hlo : -128 ≤ v) (hhi : v ≤ 127) (hzero : ∀ k : Fin 17, i < k.val → st.bank.nlsfIndex[k] = 0) :
    escapeCount (stageNlsf (i + 1) v st).bank order = escapeCount st.bank order + if 4 ≤ v.natAbs then 1 else 0 := by
  have hlen : i < ((st.bank.nlsfIndex.toList.drop 1).take order).length := by simp; omega
  have hold : ((st.bank.nlsfIndex.toList.drop 1).take order)[i] = 0 := by
    simpa [Nat.add_comm 1 i] using hzero ⟨i + 1, by omega⟩ (Nat.lt_succ_self i)
  rw [escapeCount, stageNlsf_nlsfIndex_toList, List.drop_set, if_neg (by omega), Nat.add_sub_cancel, List.take_set,
    List.countP_set hlen, hold, toInt_ofInt_of_small hlo hhi]
  simp [escapeCount]

/-! ### The answers taken so far -/

/-- Of `answers`, the first `n` have been taken and `rest` are to come. -/
def Consumed (answers : List Byte) (n : Nat) (rest : List Byte) : Prop :=
  answers.drop n = rest ∧ n + rest.length = answers.length

theorem Consumed.next {answers rest : List Byte} {n : Nat} {v : Byte} (h : Consumed answers n (v :: rest)) :
    answers[n]? = some v ∧ Consumed answers (n + 1) rest := by
  obtain ⟨hdrop, hlen⟩ := h
  refine ⟨?_, ?_, ?_⟩
  · have hget : (answers.drop n)[0]? = some v := by rw [hdrop]; rfl
    simpa using hget
  · rw [← List.drop_drop, hdrop]; rfl
  · rw [List.length_cons] at hlen; omega

theorem Consumed.cast {answers rest : List Byte} {n m : Nat} (h : Consumed answers n rest) (hnm : n = m) :
    Consumed answers m rest := hnm ▸ h

/-- The requests for gain index 0 (R113). -/
def gain0Requests (c : FrameContext) : Nat := if conditionalMode c.mode then 1 else 2

/-- The requests before a pitch request, or the seed's in a frame that is not voiced (R138). -/
def pitchStart (c : FrameContext) (st : Staged) : Nat :=
  baseRequests (conditionalMode c.mode) c.nsf (lpcOrder c.fs) (escapeCount st.bank (lpcOrder c.fs)) - 1

/-- Whether a voiced frame tries the delta (R123). -/
def deltaTried (c : FrameContext) : Bool := decide (c.mode = 2 ∧ c.prevSignalType = 2)

/-- Whether a voiced frame's lag is coded absolutely: no delta is tried, or its answer is 0 (R124, R126). -/
def lagAbsolute (c : FrameContext) (answers : List Byte) (st : Staged) : Bool :=
  !deltaTried c || answers[pitchStart c st]? == some 0

/-- The requests for a voiced frame's lag (R123 to R126). -/
def lagRequests (c : FrameContext) (answers : List Byte) (st : Staged) : Nat :=
  (if deltaTried c then 1 else 0) + if lagAbsolute c answers st then 2 else 0

/-- The requests before each step's, in a frame with the answers `answers` (R138). -/
def requestsBefore (c : FrameContext) (answers : List Byte) (st : Staged) (step : SeqStep) : Nat :=
  let escapes := escapeCount st.bank (lpcOrder c.fs)
  match step with
  | .signalType => escapes
  | .gainDelta0 | .gainMsb => 1 + escapes
  | .gainLsb _ => 2 + escapes
  | .gainDelta k => gain0Requests c + k + escapes
  | .stage1 => gain0Requests c + c.nsf + escapes
  | .residual i => gain0Requests c + c.nsf + 1 + i + escapes
  | .extension i _ => gain0Requests c + c.nsf + 2 + i + escapes
  | .interp => gain0Requests c + c.nsf + 1 + lpcOrder c.fs + escapes
  | .pitchDelta => pitchStart c st
  | .pitchHigh => pitchStart c st + if deltaTried c then 1 else 0
  | .pitchLow _ => pitchStart c st + (if deltaTried c then 1 else 0) + 1
  | .contour => pitchStart c st + lagRequests c answers st
  | .periodicity => pitchStart c st + lagRequests c answers st + 1
  | .ltpGain k => pitchStart c st + lagRequests c answers st + 2 + k
  | .ltpScale => pitchStart c st + lagRequests c answers st + 2 + c.nsf
  | .seed => pitchStart c st + if st.bank.signalType = 2
      then voicedRequests (deltaTried c) (lagAbsolute c answers st) (decide (c.mode = 0)) c.nsf else 0

/-- The branch of R111 by which a step is reached. -/
def BranchTaken (c : FrameContext) (answers : List Byte) (st : Staged) (step : SeqStep) : Prop :=
  match step with
  | .gainDelta0 => conditionalMode c.mode = true
  | .gainMsb | .gainLsb _ => conditionalMode c.mode = false
  | .extension _ x => x = 0 ∨ x = 8
  | .pitchDelta => deltaTried c = true
  | .pitchHigh | .pitchLow _ => lagAbsolute c answers st = true
  | _ => True

/-- The answers taken so far are those of the requests before the next step; the seed's is the last. -/
def Progress.Counted (c : FrameContext) (answers rest : List Byte) : Progress → Prop
  | .ask step st => BranchTaken c answers st step ∧ Consumed answers (requestsBefore c answers st step) rest
  | .finished st => Consumed answers (requestsBefore c answers st .seed + 1) rest

section ask
variable {c : FrameContext} {answers rest : List Byte} {st : Staged} {n k : Nat}

theorem deltaTried_iff : deltaTried c = true ↔ conditionalMode c.mode = true ∧ c.prevSignalType = 2 := by
  simp [deltaTried, conditionalMode]

theorem askSeed_counted (h : Consumed answers (requestsBefore c answers st .seed) rest) :
    (askSeed st).Counted c answers rest := ⟨trivial, h⟩

/-- A voiced frame's requests before the seed (R138). -/
theorem requestsBefore_seed_of_voiced (hvoiced : st.bank.signalType = 2) : requestsBefore c answers st .seed =
    pitchStart c st + lagRequests c answers st + 2 + c.nsf + if c.mode = 0 then 1 else 0 := by
  simp only [requestsBefore, hvoiced, if_true, voicedRequests, lagRequests, decide_eq_true_eq]
  omega

theorem requestsBefore_seed_of_not_voiced (h : st.bank.signalType ≠ 2) :
    requestsBefore c answers st .seed = pitchStart c st := by
  rw [requestsBefore, if_neg h]
  rfl

theorem askLtp_counted (hk : k ≤ c.nsf) (hvoiced : st.bank.signalType = 2)
    (h : Consumed answers (pitchStart c st + lagRequests c answers st + 2 + k) rest) :
    (askLtp c k st).Counted c answers rest := by
  unfold askLtp
  split_ifs with hlt hmode
  · exact ⟨trivial, h⟩
  · obtain rfl : k = c.nsf := by omega
    exact ⟨trivial, h⟩
  · obtain rfl : k = c.nsf := by omega
    have hltps : c.mode ≠ 0 := by simpa [decodesLtpScale] using hmode
    refine askSeed_counted (h.cast (Eq.trans ?_ (requestsBefore_seed_of_voiced hvoiced).symm))
    rw [if_neg hltps]
    rfl

theorem askPitch_counted (h : Consumed answers (pitchStart c st) rest) : (askPitch c st).Counted c answers rest := by
  unfold askPitch
  split_ifs with hvoiced htried
  · exact ⟨deltaTried_iff.2 htried, h⟩
  · have hnot : deltaTried c = false := by rwa [← deltaTried_iff, Bool.not_eq_true] at htried
    refine ⟨by simp [BranchTaken, lagAbsolute, hnot], ?_⟩
    simpa [requestsBefore, hnot] using h
  · exact askSeed_counted (h.cast (requestsBefore_seed_of_not_voiced hvoiced).symm)

theorem pitchStart_eq (hnsf : 0 < c.nsf) : pitchStart c st = gain0Requests c + c.nsf + 1 + lpcOrder c.fs +
    escapeCount st.bank (lpcOrder c.fs) + if c.nsf = 4 then 1 else 0 := by
  unfold pitchStart baseRequests gain0Requests
  split <;> omega

theorem askInterp_counted (hnsf : 0 < c.nsf) (h : Consumed answers (requestsBefore c answers st .interp) rest) :
    (askInterp c st).Counted c answers rest := by
  unfold askInterp
  split_ifs with hfour
  · exact ⟨trivial, h⟩
  · refine askPitch_counted (h.cast ?_)
    rw [pitchStart_eq hnsf, if_neg hfour]
    rfl

theorem askResidual_counted (hnsf : 0 < c.nsf) (hk : k ≤ lpcOrder c.fs)
    (h : Consumed answers (requestsBefore c answers st (.residual k)) rest) :
    (askResidual c k st).Counted c answers rest := by
  unfold askResidual
  split_ifs
  · exact ⟨trivial, h⟩
  · obtain rfl : k = lpcOrder c.fs := by omega
    exact askInterp_counted hnsf h

theorem askGain_counted (hk : k ≤ c.nsf) (h : Consumed answers (requestsBefore c answers st (.gainDelta k)) rest) :
    (askGain c k st).Counted c answers rest := by
  unfold askGain
  split_ifs
  · exact ⟨trivial, h⟩
  · obtain rfl : k = c.nsf := by omega
    exact ⟨trivial, h⟩

end ask

/-- Each answer adds one to the requests before the next step. -/
theorem absorb_counted {rom : Rom} {c : FrameContext} {answers rest : List Byte} {v : Byte} {step : SeqStep}
    {st : Staged} (hnsf : 0 < c.nsf) (hin : (v.toNat : Int) < alphabet (requestTid rom c st step))
    (hstaged : StagedAt c step st) (h : (Progress.ask step st).Counted c answers (v :: rest)) :
    (absorb c v st step).Counted c answers rest := by
  obtain ⟨hbranch, hconsumed⟩ := h
  obtain ⟨hanswer, hnext⟩ := hconsumed.next
  cases step with
  | signalType =>
    simp only [absorb]
    split
    · next hcond => exact ⟨hcond, hnext.cast (Nat.add_comm _ _)⟩
    · next hcond => exact ⟨by simpa [BranchTaken] using hcond, hnext.cast (Nat.add_comm _ _)⟩
  | gainDelta0 =>
    have hone : gain0Requests c = 1 := if_pos hbranch
    refine askGain_counted hnsf (hnext.cast ?_)
    change 1 + _ + 1 = gain0Requests c + 1 + _
    rw [hone, Nat.add_right_comm]
    rfl
  | gainMsb => exact ⟨hbranch, hnext.cast (Nat.add_right_comm 1 _ 1)⟩
  | gainLsb msb =>
    have htwo : gain0Requests c = 2 := by simp [gain0Requests, show conditionalMode c.mode = false from hbranch]
    refine askGain_counted hnsf (hnext.cast ?_)
    change 2 + _ + 1 = gain0Requests c + 1 + _
    rw [htwo, Nat.add_right_comm]
    rfl
  | gainDelta k => exact askGain_counted hstaged.2 (hnext.cast (Nat.add_right_comm _ _ 1))
  | stage1 =>
    refine askResidual_counted hnsf (Nat.zero_le _) (hnext.cast ?_)
    simp only [requestsBefore, escapeCount_stageNlsf_zero]
    omega
  | residual i =>
    rw [requestTid, alphabet_tidRes] at hin
    simp only [absorb]
    split
    · next hescape => exact ⟨hescape, hnext.cast (by simp only [requestsBefore]; omega)⟩
    · next hplain =>
      obtain ⟨⟨⟨-, -, hzero, -⟩, -⟩, hi⟩ := hstaged
      refine askResidual_counted hnsf hi (hnext.cast ?_)
      have hsmall : ¬ 4 ≤ ((v.toNat : Int) - nlsfQuantMaxAmplitude).natAbs := by
        simp only [nlsfQuantMaxAmplitude]
        bv_omega
      simp only [requestsBefore]
      rw [escapeCount_stageNlsf_succ hi (lpcOrder_le _) (by simp only [nlsfQuantMaxAmplitude]; omega)
        (by simp only [nlsfQuantMaxAmplitude]; omega) hzero, if_neg hsmall]
      omega
  | extension i x =>
    rw [requestTid, alphabet_twentySeven] at hin
    obtain ⟨⟨⟨-, -, hzero, -⟩, -⟩, hi⟩ := hstaged
    rw [absorb_extension hbranch]
    refine askResidual_counted hnsf hi (hnext.cast ?_)
    simp only [requestsBefore]
    rw [escapeCount_stageNlsf_succ hi (lpcOrder_le _) (by split <;> omega) (by split <;> omega) hzero,
      if_pos (by split <;> omega)]
    omega
  | interp =>
    obtain ⟨-, hfour⟩ := hstaged
    refine askPitch_counted (hnext.cast (Eq.trans ?_ (pitchStart_eq hnsf).symm))
    rw [if_pos hfour]
    rfl
  | pitchDelta =>
    have htried : deltaTried c = true := hbranch
    have hdelta : answers[pitchStart c st]? = some v := hanswer
    simp only [absorb]
    split
    · next hzero =>
      have habsolute : lagAbsolute c answers st = true := by simp [lagAbsolute, hdelta, hzero]
      refine ⟨habsolute, hnext.cast ?_⟩
      simp only [requestsBefore, htried, if_true]
    · next hnonzero =>
      have hlag : lagRequests c answers st = 1 := by
        simpa [lagRequests, lagAbsolute, htried, hdelta] using hnonzero
      refine ⟨trivial, hnext.cast ?_⟩
      change pitchStart c st + 1 = pitchStart c st + lagRequests c answers st
      rw [hlag]
  | pitchHigh => exact ⟨hbranch, hnext⟩
  | pitchLow hi =>
    have hlag : lagRequests c answers st = (if deltaTried c then 1 else 0) + 2 := by
      rw [lagRequests, if_pos (show lagAbsolute c answers st = true from hbranch)]
    refine ⟨trivial, hnext.cast ?_⟩
    change pitchStart c st + _ + 1 + 1 = pitchStart c st + lagRequests c answers st
    rw [hlag]
    rfl
  | contour => exact ⟨trivial, hnext⟩
  | periodicity =>
    obtain ⟨-, hvoiced, -⟩ := hstaged
    exact askLtp_counted (Nat.zero_le _) hvoiced hnext
  | ltpGain k =>
    obtain ⟨⟨-, hvoiced, -⟩, hk⟩ := hstaged
    exact askLtp_counted hk hvoiced hnext
  | ltpScale =>
    obtain ⟨⟨-, hvoiced, -⟩, hmode⟩ := hstaged
    refine askSeed_counted (hnext.cast (Eq.trans ?_ (requestsBefore_seed_of_voiced hvoiced).symm))
    rw [if_pos hmode]
    rfl
  | seed => exact hnext

theorem escapeCount_reset : ∀ order : Fin 17, escapeCount State.reset.idx order.val = 0 := by decide

/-- A completed procedure has taken the requests before the seed's, and the seed's. -/
theorem indexProcedure_counted {rom : Rom} {mode : BitVec 2} {vad : Bool} {ch : Channel} {answers rest : List Byte}
    {st : Staged} (hc : ch.cfgOk = true) (hrun : (indexProcedure rom mode vad ch).run answers = .ok (st, rest)) :
    Consumed answers (requestsBefore (frameContext mode vad ch) answers st .seed + 1) rest := by
  rw [indexProcedure_eq_exchange] at hrun
  have hnsf := frameContext_nsf_pos mode vad hc
  have hnone : escapeCount (initialStaged ch).bank (lpcOrder ch.fsKhz.toNat) = 0 :=
    escapeCount_reset ⟨_, Nat.lt_succ_of_le (lpcOrder_le _)⟩
  exact (exchange_induction
    (P := fun rest p => p.Holds (StagedAt (frameContext mode vad ch)) ∧
      p.Counted (frameContext mode vad ch) answers rest)
    (p := .ask .signalType (initialStaged ch))
    (fun _ _ _ _ hin h => ⟨absorb_stagedAt hnsf h.1, absorb_counted hnsf hin h.1 h.2⟩)
    ⟨initialStaged_opening mode vad ch, trivial, Consumed.cast ⟨rfl, Nat.zero_add _⟩ hnone.symm⟩ hrun).2

/-- Settles O23: the requests of a completed procedure are all its answers. -/
theorem requestCountOfAFrame : Obligations.RequestCountOfAFrame := by
  intro rom mode vad ch answers st hc hm hrun nsf base
  have hlen : answers.length = requestsBefore (frameContext mode vad ch) answers st .seed + 1 :=
    (indexProcedure_counted hc hrun).2.symm
  have hbase : pitchStart (frameContext mode vad ch) st + 1 = base :=
    Nat.sub_add_cancel (by unfold baseRequests; omega)
  split
  · next hvoiced =>
    refine ⟨lagAbsolute (frameContext mode vad ch) answers st, ?_, ?_⟩
    · simp only [lagAbsolute, Bool.or_eq_true, Bool.not_eq_true', beq_iff_eq]
      rfl
    · rw [hlen, requestsBefore, if_pos hvoiced, Nat.add_right_comm, hbase]
      rfl
  · next h =>
    rw [hlen, requestsBefore_seed_of_not_voiced h, hbase]

end Sys2Proof.Machine
end

section
/-! PROOFS. The arithmetic of the reconstructor on its own: the gain table (O33), the residual dequantizer (O34), the
stabilizer (O35, O36) and bandwidth expansion (O38). -/

namespace Sys2Proof.Machine

/-! ### The gain table (R154) -/

/-- Settles O33: the 64 values computed. -/
theorem gainTableIncreases : Obligations.GainTableIncreases :=
  ⟨by decide, by decide⟩

/-! ### The residual dequantizer (R162, R163) -/

/-- The quantized term of an index: the index in Q10, moved towards 0 by the level adjustment (R162). -/
def quantLevel (ind : Int) : Int := if 0 < ind then 1024 * ind - 102 else if ind < 0 then 1024 * ind + 102 else 0

theorem quantLevel_eq (ind : Int) :
    (if shl ind 10 > 0 then shl ind 10 - nlsfQuantLevelAdjQ10
      else if shl ind 10 < 0 then shl ind 10 + nlsfQuantLevelAdjQ10 else shl ind 10) = quantLevel ind := by
  simp only [shl, nlsfQuantLevelAdjQ10, quantLevel]
  split_ifs <;> omega

/-- One coefficient before the wrap: `above` is the residual of the coefficient after it (R162). -/
def residualTerm (qstep above : Int) (x : Int × Int) : Int :=
  asr (above * x.2) 8 + smulwb (quantLevel x.1) qstep

theorem residualDequant_cons (qstep : Int) (x : Int × Int) (xs : List (Int × Int)) :
    residualDequant qstep (x :: xs) =
      wrap16 (residualTerm qstep ((residualDequant qstep xs).headD 0) x) :: residualDequant qstep xs := by
  rw [residualTerm, ← quantLevel_eq]
  rfl

theorem residualExact_cons (qstep : Int) (x : Int × Int) (xs : List (Int × Int)) :
    residualExact qstep (x :: xs) =
      residualTerm qstep ((residualExact qstep xs).headD 0) x :: residualExact qstep xs := by
  rw [residualTerm, ← quantLevel_eq]
  rfl

/-- The indices and predictors that R163 speaks of (R32, R117). -/
def ResidualAdmitted (x : Int × Int) : Prop := -10 ≤ x.1 ∧ x.1 ≤ 10 ∧ 0 ≤ x.2 ∧ x.2 ≤ 255

/-- A negative term is rounded down, past R163's 1824. -/
theorem smulwb_quantLevel_mem (cb : Codebook) {ind : Int} (hlo : -10 ≤ ind) (hhi : ind ≤ 10) :
    InRange (smulwb (quantLevel ind) (qstepQ16 cb)) (-1825) 1824 := by
  have hstep : sext16 (qstepQ16 cb) = qstepQ16 cb := by cases cb <;> decide
  obtain ⟨hlevel, hlevel'⟩ : InRange (quantLevel ind) (-10138) 10138 := by
    unfold quantLevel
    split_ifs <;> constructor <;> omega
  unfold smulwb
  rw [hstep]
  cases cb <;> simp only [qstepQ16, asr] <;> constructor <;> omega

/-- A bound on the residual after `n` coefficients. The predictors are below 1, so that each coefficient but the first
adds less than a whole term, and 16 terms of 1825 stay below R163's 29184. -/
def residualBound (n : Nat) : Int := min (1825 * n) (1820 * n + 5)

theorem residualTerm_mem (cb : Codebook) {n : Nat} {above : Int} {x : Int × Int}
    (habove : InRange above (-residualBound n) (residualBound n)) (hx : ResidualAdmitted x) :
    InRange (residualTerm (qstepQ16 cb) above x) (-residualBound (n + 1)) (residualBound (n + 1)) := by
  obtain ⟨hind, hind', hpred, hpred'⟩ := hx
  obtain ⟨hterm, hterm'⟩ := smulwb_quantLevel_mem cb hind hind'
  obtain ⟨hlo, hhi⟩ := habove
  have hmulLo : -residualBound n * 255 ≤ above * x.2 := by nlinarith
  have hmulHi : above * x.2 ≤ residualBound n * 255 := by nlinarith
  unfold residualBound at *
  unfold residualTerm asr
  constructor <;> omega

theorem residualExact_mem (cb : Codebook) {xs : List (Int × Int)} (hxs : ∀ x ∈ xs, ResidualAdmitted x) :
    InRange ((residualExact (qstepQ16 cb) xs).headD 0) (-residualBound xs.length) (residualBound xs.length) ∧
      ∀ r ∈ residualExact (qstepQ16 cb) xs, InRange r (-residualBound xs.length) (residualBound xs.length) := by
  induction xs with
  | nil => simp [residualExact, residualBound]
  | cons x xs ih =>
    obtain ⟨hx, hxs⟩ := List.forall_mem_cons.1 hxs
    obtain ⟨hhead, hall⟩ := ih hxs
    have hterm := residualTerm_mem cb hhead hx
    have hmono : residualBound xs.length ≤ residualBound (xs.length + 1) := by
      unfold residualBound
      omega
    rw [residualExact_cons]
    refine ⟨hterm, List.forall_mem_cons.2 ⟨hterm, fun r hr => ?_⟩⟩
    obtain ⟨hlo, hhi⟩ := hall r hr
    exact ⟨le_trans (neg_le_neg hmono) hlo, le_trans hhi hmono⟩

theorem residualBound_lt {n : Nat} (hn : n ≤ 16) : residualBound n < 29184 := by
  unfold residualBound
  omega

/-- By R163's bound each residual on admitted inputs fits 16 bits. -/
theorem residualDequant_eq_residualExact (cb : Codebook) {xs : List (Int × Int)} (hlen : xs.length ≤ 16)
    (hxs : ∀ x ∈ xs, ResidualAdmitted x) : residualDequant (qstepQ16 cb) xs = residualExact (qstepQ16 cb) xs := by
  induction xs with
  | nil => rfl
  | cons x xs ih =>
    have hhead := (residualExact_mem cb hxs).1
    have hbound := residualBound_lt hlen
    rw [residualExact_cons] at hhead ⊢
    obtain ⟨hlo, hhi⟩ := hhead
    rw [List.headD_cons] at hlo hhi
    rw [residualDequant_cons, ih (by simp at hlen; omega) (List.forall_mem_cons.1 hxs).2,
      wrap16_eq_self (by omega) (by omega)]

/-- Settles O34: R163's bound, on the residuals without the wrap, is what keeps the wrap from acting. -/
theorem residualWrapHasNoEffect : Obligations.ResidualWrapHasNoEffect := by
  intro cb xs hlen hxs
  have heq := residualDequant_eq_residualExact cb hlen hxs
  refine ⟨heq, fun r hr => ?_⟩
  obtain ⟨hlo, hhi⟩ := (residualExact_mem cb hxs).2 r (heq ▸ hr)
  have hbound := residualBound_lt hlen
  exact ⟨by omega, by omega⟩

/-! ### The stabilizer (R166, R167) -/

/-- A vector with no negative slack keeps its distances: element `i` is at least `d[i]` above the one before it, with
`below` before the first and 32768 after the last. -/
theorem spaced_of_slacks_nonneg {xs d : List Int} {below : Int} (hs : ∀ m ∈ slacks below xs d, 0 ≤ m) :
    ∀ i ≤ xs.length, (below :: xs).getD i 0 + d.getD i 0 ≤ (xs ++ [32768]).getD i 0 := by
  induction xs generalizing d below with
  | nil =>
    intro i hi
    obtain rfl : i = 0 := by simpa using hi
    cases d <;> simpa [slacks] using hs
  | cons x xs ih =>
    simp only [slacks, List.mem_cons, forall_eq_or_imp] at hs
    obtain ⟨hx, hxs⟩ := hs
    rintro (_ | i) hi
    · cases d <;> simp at hx ⊢ <;> omega
    · have hrest := ih hxs i (by simpa using hi)
      cases d <;> simpa using hrest

theorem deltaMinLegal_iff {d : List Int} :
    deltaMinLegal d = true ↔ (∀ m ∈ d, 1 ≤ m) ∧ 2 ≤ d.getLastD 0 ∧ d.sum ≤ 32768 := by
  simp [deltaMinLegal, and_assoc]

/-- Settles O35: whichever way the stabilizer ends, no slack is negative. -/
theorem stabilizerSpacesTheVector : Obligations.StabilizerSpacesTheVector := by
  refine ⟨fun cb => by cases cb <;> decide, fun d x hne hlen hlegal => ?_⟩
  obtain ⟨hd, -, hsum⟩ := deltaMinLegal_iff.1 hlegal
  have hslacks := nlsfStabilize_slacks_nonneg hlen hd hsum
  have hy := length_nlsfStabilize d x
  have hpos := List.length_pos_of_ne_nil hne
  generalize nlsfStabilize d x = y at *
  have hspaced := spaced_of_slacks_nonneg hslacks
  have hmem := (lt_of_slacks_nonneg (by omega) hd hslacks).2
  refine ⟨hy, fun v hv => ?_, ?_, fun i hi => ?_, ?_⟩
  · obtain ⟨hlo, hhi⟩ := hmem v hv
    exact ⟨by omega, by omega⟩
  · have hfirst := hspaced 0 (by omega)
    rw [List.getD_append _ _ _ _ (by omega)] at hfirst
    simpa using hfirst
  · have hnext := hspaced (i + 1) (by omega)
    rw [List.getD_append _ _ _ _ (by omega)] at hnext
    simpa using hnext
  · have hlast := hspaced x.length (by omega)
    rw [List.getD_append_right _ _ _ _ (by omega), hy, Nat.sub_self] at hlast
    obtain ⟨n, hn⟩ : ∃ n, x.length = n + 1 := ⟨x.length - 1, by omega⟩
    rw [hn] at hlast ⊢
    rw [le_sub_iff_add_le]
    simpa using hlast

/-- The first minimum is the value it starts with or an element of the list. -/
theorem firstMin_mem (best : Int) (bestAt at_ : Nat) (xs : List Int) :
    (firstMin best bestAt at_ xs).1 ∈ best :: xs := by
  induction xs generalizing best bestAt at_ with
  | nil => simp [firstMin]
  | cons x xs ih =>
    unfold firstMin
    split
    · exact List.mem_cons_of_mem _ (ih x at_ _)
    · have hmem := ih best bestAt (at_ + 1)
      simp only [List.mem_cons] at hmem ⊢
      exact hmem.imp_right .inr

/-- When no slack is negative the least one is not. -/
theorem leastSlack_nonneg {d x : List Int} (h : ∀ m ∈ slacks 0 x d, 0 ≤ m) : 0 ≤ (leastSlack d x).1 := by
  unfold leastSlack
  generalize slacks 0 x d = ms at h ⊢
  cases ms with
  | nil => simp
  | cons m ms => exact h _ (firstMin_mem m 0 1 ms)

/-- Settles O36: the first test of the loop already ends it. -/
theorem stableVectorIsUnchanged : Obligations.StableVectorIsUnchanged := fun _ _ _ hstable =>
  if_pos (leastSlack_nonneg hstable)

/-! ### Bandwidth expansion (R173) -/

/-- A chirp from 0 to 65536 does not take a coefficient out of 16 bits. -/
theorem rshiftRound_chirp_mem {chirp x : Int} (hchirp : InRange chirp 0 65536) (hx : InRange x (-32768) 32767) :
    InRange (rshiftRound (chirp * x) 16) (-32768) 32767 := by
  obtain ⟨h0, h1⟩ := hchirp
  obtain ⟨hlo, hhi⟩ := hx
  have hmulLo : 65536 * -32768 ≤ chirp * x := by nlinarith
  have hmulHi : chirp * x ≤ 65536 * 32767 := by nlinarith
  rw [rshiftRound_sixteen]
  constructor <;> omega

/-- The next coefficient's chirp. -/
theorem chirp_next_mem {chirp : Int} (h : InRange chirp 0 65536) :
    InRange (chirp + rshiftRound (chirp * (63570 - 65536)) 16) 0 65536 := by
  obtain ⟨h0, h1⟩ := h
  rw [rshiftRound_sixteen]
  constructor <;> omega

theorem bwExpandFrom_mem {chirp : Int} {a : List Int} (hchirp : InRange chirp 0 65536)
    (ha : ∀ x ∈ a, InRange x (-32768) 32767) :
    ∀ y ∈ bwExpandFrom (63570 - 65536) chirp a, InRange y (-32768) 32767 := by
  induction a generalizing chirp with
  | nil => simp [bwExpandFrom]
  | cons x xs ih =>
    obtain ⟨hx, hxs⟩ := List.forall_mem_cons.1 ha
    exact List.forall_mem_cons.2 ⟨rshiftRound_chirp_mem hchirp hx, ih (chirp_next_mem hchirp) hxs⟩

/-- Settles O38: the first chirp is below 65536, and so is every later one. -/
theorem bandwidthExpansionFits : Obligations.BandwidthExpansionFits := fun a ha =>
  ⟨length_bwExpandFrom _ _ a, bwExpandFrom_mem (by decide) ha⟩

end Sys2Proof.Machine
end

section
/-! PROOFS. What RECON writes: the gains (O32), the NLSF vector and the whole commit (O17), the LTP outputs (O42, O43),
and what it depends on (O45). -/

namespace Sys2Proof.Machine

/-! ### Computed sequences and the registers they are packed into -/

theorem map_take_eq_map_range {α β : Type} {l : List α} {m : Nat} (d : α) (f : α → β) (h : m ≤ l.length) :
    (l.take m).map f = (List.range m).map fun k => f (l.getD k d) := by
  apply List.ext_getElem
  · simpa using h
  · intro k hk _
    have hkl : k < l.length := by simp at hk; omega
    simp [hkl]

theorem getD_map_range {α : Type} {m k : Nat} (f : Nat → α) (d : α) (hk : k < m) :
    ((List.range m).map f).getD k d = f k := by
  simp [hk]

/-- A packed bank holds the sequence, then zeros (D26, D28). -/
theorem pack_getElem_ite {w n : Nat} (xs : List Int) (k : Fin n) :
    (pack w n xs)[k] = if k.val < xs.length then BitVec.ofInt w (xs.getD k.val 0) else 0 := by
  split
  · exact pack_getElem w n xs k.val k.isLt
  · exact pack_getElem_beyond w n xs k.val k.isLt (by omega)

theorem pack_map_range_getElem {w n m : Nat} (f : Nat → Int) (k : Fin n) :
    (pack w n ((List.range m).map f))[k] = if k.val < m then BitVec.ofInt w (f k.val) else 0 := by
  rw [pack_getElem_ite, List.length_map, List.length_range]
  split
  · next hk => rw [getD_map_range f 0 hk]
  · rfl

/-! ### The gains (R151 to R155) -/

section gains
variable (conditional : Bool) (last : Int) (ind : Nat → Int)

/-- One subframe of R151's pseudocode is one step of the dequantizer, absolute in subframe 0 of an independent frame. -/
theorem runningGain_succ (k : Nat) : runningGain conditional last ind (k + 1) =
    gainStep (decide (k = 0) && !conditional) (runningGain conditional last ind k) (ind k) := by
  have hthr (prev : Int) : 2 * maxDeltaGainQuant - nLevelsQgain + prev = 8 + prev := rfl
  rw [gainStep, clamp_eq_min_max (by decide), runningGain, hthr]
  cases k <;> cases conditional <;> simp [minDeltaGainQuant, nLevelsQgain, Int.sub_eq_add_neg]

theorem gainDeltas_map_range' (n j : Nat) :
    gainDeltas (runningGain conditional last ind (j + 1)) ((List.range' (j + 1) n).map ind) =
      (List.range' (j + 1) n).map fun k => runningGain conditional last ind (k + 1) := by
  induction n generalizing j with
  | zero => rfl
  | succ n ih =>
    have hstep := runningGain_succ conditional last ind (j + 1)
    rw [decide_eq_false (Nat.succ_ne_zero j), Bool.false_and] at hstep
    simp only [List.range'_succ, List.map_cons, gainDeltas, ← hstep, ih]

/-- The dequantizer's running indices are those of R151's pseudocode. -/
theorem gainIndices_map_range (n : Nat) : gainIndices conditional last ((List.range n).map ind) =
    (List.range n).map fun k => runningGain conditional last ind (k + 1) := by
  cases n with
  | zero => rfl
  | succ n =>
    have hstep := runningGain_succ conditional last ind 0
    rw [decide_eq_true rfl, Bool.true_and] at hstep
    have hstart : runningGain conditional last ind 0 = last := rfl
    rw [hstart] at hstep
    simp only [List.range_eq_range', List.range'_succ, List.map_cons, gainIndices, ← hstep, gainDeltas_map_range']

end gains

/-- The running gain index of a frame after `k` subframes (R151). -/
def frameRunningGain (ch : Channel) (bank : IndexBank) (mode : BitVec 2) : Nat → Int :=
  runningGain (decide (mode = 2)) ch.lastGainIndex.toInt fun k => (bank.gainsIndex.toList.getD k 0).toInt

theorem nbSubfr_mem {ch : Channel} (hc : ch.cfgOk = true) : 0 < ch.nbSubfr.toNat ∧ ch.nbSubfr.toNat ≤ 4 := by
  obtain h | h := (cfgOk_cases hc).2 <;> simp [h]

theorem frameGainIndices_eq {ch : Channel} (hc : ch.cfgOk = true) (bank : IndexBank) (mode : BitVec 2) :
    frameGainIndices ch bank mode =
      (List.range ch.nbSubfr.toNat).map fun k => frameRunningGain ch bank mode (k + 1) := by
  unfold frameGainIndices
  rw [map_take_eq_map_range 0 BitVec.toInt (by simpa using (nbSubfr_mem hc).2), gainIndices_map_range]
  rfl

/-- Settles O32: the gains are the table's at the running indices, and the last of those is carried on. -/
theorem gainsAreDequantized : Obligations.GainsAreDequantized := by
  refine ⟨fun conditional last inds => ⟨length_gainIndices _ _ _, gainIndices_mem _ _ _⟩, fun s hidle hc hvalid => ?_⟩
  refine ⟨_, exec_recon_of_ready hidle hc hvalid, fun k => ?_, ?_⟩
  · change (pack 32 4 ((frameGainIndices s.channel s.idx s.idxStatus.mode).map gainLut))[k] = _
    rw [frameGainIndices_eq hc, List.map_map, pack_map_range_getElem]
    rfl
  · change (BitVec.ofInt 8 ((frameGainIndices s.channel s.idx s.idxStatus.mode).getLastD _)).toInt = _
    obtain ⟨n, hn⟩ := Nat.exists_eq_add_of_lt (nbSubfr_mem hc).1
    rw [Nat.zero_add] at hn
    rw [frameGainIndices_eq hc, hn, List.range_succ, List.map_append, List.map_singleton, List.getLastD_concat]
    refine (inRange_toInt_ofInt (lo := 0) (hi := 63) (by decide) (by decide) (by decide) ?_).1
    unfold frameRunningGain
    rw [runningGain_succ]
    exact gainStep_mem _ _ _

/-! ### The NLSF vector (R162 to R167, R172) -/

/-- The residual dequantizer, from the last coefficient down, runs as R162's pseudocode. -/
theorem residualDequant_map_range' (ind pred : Nat → Int) (qstep : Int) {order n : Nat} (hn : n ≤ order) :
    residualDequant qstep ((List.range' (order - n) n).map fun i => (ind i, pred i)) =
      (List.range' (order - n) n).map fun i => residualAfter ind pred qstep order (order - i) := by
  induction n with
  | zero => rfl
  | succ n ih =>
    have hnext : order - (n + 1) + 1 = order - n := by omega
    have hthis : order - (order - (n + 1)) = n + 1 := by omega
    have hat : order - (n + 1) = order - 1 - n := by omega
    have habove : ((List.range' (order - n) n).map fun i => residualAfter ind pred qstep order (order - i)).headD 0 =
        residualAfter ind pred qstep order n := by
      cases n with
      | zero => rfl
      | succ m => rw [List.range'_succ, List.map_cons, List.headD_cons, Nat.sub_sub_self (by omega)]
    rw [List.range'_succ, List.map_cons, List.map_cons, residualDequant_cons, hnext, ih (by omega), habove, hthis, hat]
    rfl

/-- One NLSF value of R164 and R165. -/
theorem nlsfValue_eq (rom : Rom) (cb : Codebook) (i0 i : Nat) (res : Int) : nlsfValue rom cb i0 i res =
    min (max (Int.tdiv (res * 2 ^ 14) ((rom.cb1WghtLess1 cb i0 i).val + 1) + (rom.cb1Q8 cb i0 i).toNat * 2 ^ 7) 0)
      32767 :=
  clamp_eq_min_max (by decide)

/-- The reconstructed vector in R162's and R164's own terms, still to be stabilized. -/
theorem nlsfDecode_eq (rom : Rom) (cb : Codebook) (ind : Vector (BitVec 8) 17) :
    nlsfDecode rom cb ind = nlsfStabilize (deltaMinQ15 cb) ((List.range (codebookOrder cb)).map fun i =>
      min (max (Int.tdiv
        (residualAfter (fun i => (ind.toList.getD (i + 1) 0).toInt) (nlsfPred rom cb ind[0].toNat) (qstepQ16 cb)
          (codebookOrder cb) (codebookOrder cb - i) * 2 ^ 14) ((rom.cb1WghtLess1 cb ind[0].toNat i).val + 1) +
        (rom.cb1Q8 cb ind[0].toNat i).toNat * 2 ^ 7) 0) 32767) := by
  have hres := residualDequant_map_range' (fun i => (ind.toList.getD (i + 1) 0).toInt) (nlsfPred rom cb ind[0].toNat)
    (qstepQ16 cb) (le_refl (codebookOrder cb))
  rw [Nat.sub_self, ← List.range_eq_range'] at hres
  unfold nlsfDecode residualInputs
  simp only [hres]
  congr 1
  refine List.map_congr_left fun i hi => ?_
  rw [getD_map_range _ _ (List.mem_range.1 hi), nlsfValue_eq]

/-- Settles O17: the commit is RECON's own, and the vector is the one of R162 to R167. -/
theorem reconCommitsTheFrame : Obligations.ReconCommitsTheFrame := by
  intro s hidle hc hvalid
  refine ⟨_, rfl, exec_recon_of_ready hidle hc hvalid, ?_⟩
  intro order cb stage1 residual value k
  change (pack 16 16 (frameNlsf Config.rom s.channel s.idx))[k] = _
  have horder : order = codebookOrder cb := lpcOrder_eq_codebookOrder hc
  have hdecode : frameNlsf Config.rom s.channel s.idx = nlsfStabilize (deltaMinQ15 cb)
      ((List.range order).map fun i => min (max (value i) 0) 32767) := by
    simp only [value, residual, horder]
    exact nlsfDecode_eq _ _ _
  rw [pack_getElem_ite, length_frameNlsf, hdecode]
  simp only [horder, cb]

/-! ### The LTP taps and scale (R175, R176) -/

/-- A table whose entries have `n` elements each, laid out one after another: element `i` of entry `k`. -/
theorem getD_flatMap {α β : Type} {f : α → List β} {n i : Nat} (d : β) (hf : ∀ x, (f x).length = n) (hi : i < n)
    (l : List α) (k : Nat) :
    (l.flatMap f).getD (n * k + i) d = (l[k]?.map fun x => (f x).getD i d).getD d := by
  induction l generalizing k with
  | nil => simp
  | cons x xs ih =>
    rw [List.flatMap_cons]
    cases k with
    | zero =>
      rw [List.getD_append _ _ _ _ (by simp [hf, hi])]
      simp
    | succ k =>
      have hrest : n * (k + 1) + i - n = n * k + i := by rw [Nat.mul_succ]; omega
      rw [List.getD_append_right _ _ _ _ (by rw [hf]; nlinarith), hf, hrest, ih]
      simp

/-- A Q7 tap shifted to Q14 in its register (R175). -/
theorem ofInt_shl_seven (v : BitVec 8) : BitVec.ofInt 16 (shl v.toInt 7) = v.signExtend 16 <<< 7 := by
  rw [shl, BitVec.ofInt_mul, BitVec.shiftLeft_eq_mul_twoPow]
  rfl

theorem frameLtpTaps_getD {rom : Rom} {ch : Channel} {bank : IndexBank} (hvoiced : bank.signalType = 2) (k : Fin 4)
    (i : Fin 5) : (frameLtpTaps rom ch bank).getD (5 * k.val + i.val) 0 =
      if k.val < ch.nbSubfr.toNat
        then shl (rom.ltpVqQ7 bank.perIndex.toNat bank.ltpIndex[k].toNat i.val).toInt 7 else 0 := by
  have htap (per ltp : Nat) : (ltpTaps rom per ltp).getD i.val 0 = shl (rom.ltpVqQ7 per ltp i.val).toInt 7 :=
    getD_map_range _ 0 i.isLt
  rw [frameLtpTaps, if_pos hvoiced, getD_flatMap 0 (fun _ => length_ltpTaps _ _ _) i.isLt, List.getElem?_take]
  simp only [htap]
  split <;> simp

/-- Settles O43: element `5 k + i` is tap `i` of the `k`-th subframe's entry. -/
theorem voicedFrameExpandsLtp : Obligations.VoicedFrameExpandsLtp := by
  intro s hidle hc hvalid hvoiced hscale
  refine ⟨_, exec_recon_of_ready hidle hc hvalid, fun k i => ?_, ?_⟩
  · change (pack 16 20 (frameLtpTaps Config.rom s.channel s.idx)).toList[5 * k.val + i.val]? = _
    rw [Vector.getElem?_toList, Vector.getElem?_eq_getElem (by omega), pack_getElem, frameLtpTaps_getD hvoiced]
    split
    · rw [ofInt_shl_seven]
      rfl
    · rfl
  · change BitVec.ofInt 32 (frameLtpScale s.idx) = _
    rw [frameLtpScale, if_pos hvoiced]
    generalize s.idx.ltpScaleIndex = x at hscale
    obtain rfl | rfl | rfl : x = 0 ∨ x = 1 ∨ x = 2 := by revert x; decide
    all_goals simp [tableRead, ltpScaleTable]

/-- Settles O42: without a voiced frame the sequences to pack are empty. -/
theorem unvoicedFrameZeroesPitchAndLtp : Obligations.UnvoicedFrameZeroesPitchAndLtp := by
  intro s hidle hc hvalid hunvoiced
  have hlags : framePitchLags s.channel s.idx = [] := if_neg hunvoiced
  have htaps : frameLtpTaps Config.rom s.channel s.idx = [] := if_neg hunvoiced
  have hscale : frameLtpScale s.idx = 0 := if_neg hunvoiced
  refine ⟨_, exec_recon_of_ready hidle hc hvalid, fun k => ?_, fun k => ?_, ?_, if_neg hunvoiced⟩
  · exact pack_getElem_beyond _ _ _ k.val k.isLt (by simp [hlags])
  · exact pack_getElem_beyond _ _ _ k.val k.isLt (by simp [htaps])
  · exact congrArg (BitVec.ofInt 32) hscale

/-! ### What RECON depends on (R177, D24) -/

theorem expandOnLoss_congr {l l' : Word} (h : l = 0 ↔ l' = 0) (a : List Int) :
    expandOnLoss l a = expandOnLoss l' a := by
  simp only [expandOnLoss, ne_eq, h]

/-- What RECON computes reads of the channel no more than `CFG`, `LAST_GAIN_INDEX`, `PREV_NLSF`, `FIRST_FRAME` and
whether `LOSS_CNT` is 0. -/
theorem reconCompute_congr {rom : Rom} {ch ch' : Channel} {bank : IndexBank} {mode : BitVec 2}
    (hfs : ch.fsKhz = ch'.fsKhz) (hnsf : ch.nbSubfr = ch'.nbSubfr) (hgain : ch.lastGainIndex = ch'.lastGainIndex)
    (hnlsf : ch.prevNlsf = ch'.prevNlsf) (hfirst : ch.firstFrame = ch'.firstFrame)
    (hloss : ch.lossCnt = 0 ↔ ch'.lossCnt = 0) :
    reconCompute rom ch bank mode = reconCompute rom ch' bank mode := by
  cases ch
  cases ch'
  simp only at hfs hnsf hgain hnlsf hfirst
  subst hfs hnsf hgain hnlsf hfirst
  unfold reconCompute
  simp only [expandOnLoss_congr hloss]
  rfl

/-- Settles O45: the two computations are the same. -/
theorem reconDependsOnlyOnItsOperands : Obligations.ReconDependsOnlyOnItsOperands := by
  intro s s' hidle hidle' hc hvalid hvalid' hidx hmode hfs hnsf hgain hnlsf hfirst hloss
  have hc' : s'.channel.cfgOk = true := by rwa [Channel.cfgOk, ← hfs, ← hnsf]
  have hsame : reconCompute Config.rom s.channel s.idx s.idxStatus.mode =
      reconCompute Config.rom s'.channel s'.idx s'.idxStatus.mode := by
    rw [hidx, hmode]
    exact reconCompute_congr hfs hnsf hgain hnlsf hfirst hloss
  refine ⟨_, _, exec_recon_of_ready hidle hc hvalid, exec_recon_of_ready hidle' hc' hvalid', ?_⟩
  simp only [runRecon, reconstruct, hsame]
  simp [hidx]

end Sys2Proof.Machine
end

section
/-! PROOFS. The prediction coefficients: the interpolation of the NLSF vector, its conversion and the bandwidth
expansion after a loss (O37, O41). -/

namespace Sys2Proof.Machine

/-! ### The interpolation (R168, R169) -/

theorem blend_eq (f prev cur : Int) : blend f prev cur = prev + (f * (cur - prev)) / 4 := by
  simp [blend, asr]

theorem blend_mem {f prev cur : Int} (h0 : 0 ≤ f) (h4 : f ≤ 4) :
    min prev cur ≤ blend f prev cur ∧ blend f prev cur ≤ max prev cur := by
  rw [blend_eq]
  obtain rfl | rfl | rfl | rfl | rfl : f = 0 ∨ f = 1 ∨ f = 2 ∨ f = 3 ∨ f = 4 := by omega
  all_goals omega

theorem blend_ends (prev cur : Int) : blend 0 prev cur = prev ∧ blend 4 prev cur = cur := by
  simp only [blend_eq]
  omega

theorem interpFactor_toNat (ch : Channel) (bank : IndexBank) :
    ((interpFactor ch bank).toNat : Int) = if ch.firstFrame then 4 else (bank.nlsfInterpCoef.toNat : Int) := by
  unfold interpFactor
  split <;> rfl

/-- The first half copies the second when the factor is not below 4 (R169). -/
theorem firstHalf_eq_secondHalf {rom : Rom} {ch : Channel} {bank : IndexBank}
    (h : 4 ≤ (interpFactor ch bank).toNat) : firstHalf rom ch bank = secondHalf rom ch bank :=
  if_neg (by omega)

/-- Settles O41: the factor of a first frame is 4. -/
theorem firstFrameNeverInterpolates : Obligations.FirstFrameNeverInterpolates := by
  intro s hidle hc hvalid hfirst
  have hfactor : interpFactor s.channel s.idx = 4 := if_pos hfirst
  have hhalves : firstHalf Config.rom s.channel s.idx = secondHalf Config.rom s.channel s.idx :=
    firstHalf_eq_secondHalf (by rw [hfactor]; decide)
  refine ⟨_, exec_recon_of_ready hidle hc hvalid, ?_, hfactor, rfl⟩
  exact congrArg (fun a => pack 16 16 (expandOnLoss s.channel.lossCnt a)) hhalves

/-! ### The conversion (R170) -/

theorem nlsf2aAt_congr {order : Nat} {x y : Nat → Int} (h : ∀ i < order, x i = y i) :
    nlsf2aAt order x = nlsf2aAt order y := by
  funext k
  unfold nlsf2aAt
  congr 1
  exact List.map_congr_left fun i hi => by rw [h i (List.mem_range.1 hi)]

/-- `NLSF2A` on a vector whose elements are `y i`. -/
theorem nlsf2a_eq {x : List Int} {order : Nat} {y : Nat → Int} (hlen : x.length = order)
    (hx : ∀ i < order, x.getD i 0 = y i) :
    nlsf2a Config.rom order x = (List.range order).map fun k => (nlsf2aAt order y k).toInt := by
  have hvalues := map_take_eq_map_range 0 (BitVec.ofInt 16) hlen.ge
  rw [← hlen, List.take_length, hlen] at hvalues
  rw [← nlsf2aAt_congr hx, nlsf2a, hvalues]
  rfl

/-! ### Bandwidth expansion (R173) -/

theorem bwExpandFrom_map_range' (a : Nat → Int) (n j : Nat) :
    bwExpandFrom (63570 - 65536) (chirpAt j) ((List.range' j n).map a) =
      (List.range' j n).map fun k => (chirpAt k * a k + 32768) / 65536 := by
  induction n generalizing j with
  | zero => rfl
  | succ n ih =>
    have hnext : chirpAt j + (chirpAt j * (63570 - 65536) + 32768) / 65536 = chirpAt (j + 1) := rfl
    simp only [List.range'_succ, List.map_cons, bwExpandFrom, rshiftRound_sixteen, hnext, ih]

/-- `BwExpand` scales coefficient `k` by `chirpAt k`. -/
theorem bwExpand_map_range (a : Nat → Int) (n : Nat) : bwExpand ((List.range n).map a) bweAfterLossQ16 =
    (List.range n).map fun k => (chirpAt k * a k + 32768) / 65536 := by
  rw [List.range_eq_range']
  exact bwExpandFrom_map_range' a n 0

/-- One half of `PRED_COEF_Q12`: its coefficients, expanded after a loss, then zeros. -/
theorem pack_expandOnLoss (lossCnt : Word) (order : Nat) (a : Nat → BitVec 16) (k : Fin 16) :
    (pack 16 16 (expandOnLoss lossCnt ((List.range order).map fun k => (a k).toInt)))[k] =
      if k.val < order then expandedAt lossCnt k.val (a k.val) else 0 := by
  unfold expandOnLoss expandedAt
  by_cases hloss : lossCnt = 0
  · rw [if_neg (by simpa using hloss), if_pos hloss, pack_map_range_getElem, BitVec.ofInt_toInt]
  · rw [if_pos hloss, if_neg hloss, bwExpand_map_range, pack_map_range_getElem]

/-! ### What RECON leaves in the two halves (R169 to R173) -/

section halves
variable {ch : Channel} (bank : IndexBank)

/-- The new `PREV_NLSF` holds the frame's vector: its values fit the registers (R23). -/
theorem prevNlsf_toList_getD {i : Nat} (hi : i < codebookOrder (codebookOf ch.fsKhz.toNat)) :
    (((pack 16 16 (frameNlsf Config.rom ch bank)).toList.getD i 0).toNat : Int) =
      (frameNlsf Config.rom ch bank).getD i 0 := by
  have hi16 : i < 16 := lt_of_lt_of_le hi (by cases codebookOf ch.fsKhz.toNat <;> decide)
  have hlen : i < (frameNlsf Config.rom ch bank).length := by rwa [length_frameNlsf]
  have hget : (pack 16 16 (frameNlsf Config.rom ch bank)).toList.getD i 0 =
      BitVec.ofInt 16 ((frameNlsf Config.rom ch bank).getD i 0) := by
    rw [List.getD_eq_getElem _ _ (by simpa using hi16), Vector.getElem_toList, pack_getElem]
  obtain ⟨hlo, hhi⟩ := nlsfDecode_mem _ _ _ _ (List.getElem_mem hlen)
  rw [hget, List.getD_eq_getElem _ _ hlen, BitVec.toNat_ofInt]
  omega

theorem blendedNlsf_getD {f : BitVec 3} {nlsf : List Int} {i : Nat} (hi : i < nlsf.length) :
    (blendedNlsf ch f nlsf).getD i 0 =
      blend f.toNat (ch.prevNlsf.toList.getD i 0).toNat (nlsf.getD i 0) := by
  simp [blendedNlsf, prevNlsfValues, hi]

theorem secondHalf_eq {order : Nat} {cur : Nat → Int} (horder : codebookOrder (codebookOf ch.fsKhz.toNat) = order)
    (hcur : ∀ i < order, (frameNlsf Config.rom ch bank).getD i 0 = cur i) :
    secondHalf Config.rom ch bank = (List.range order).map fun k => (nlsf2aAt order cur k).toInt := by
  subst horder
  exact nlsf2a_eq (length_frameNlsf _ _ _) hcur

theorem firstHalf_eq {order : Nat} {cur : Nat → Int} (horder : codebookOrder (codebookOf ch.fsKhz.toNat) = order)
    (hcur : ∀ i < order, (frameNlsf Config.rom ch bank).getD i 0 = cur i) (hf : (interpFactor ch bank).toNat < 4) :
    firstHalf Config.rom ch bank = (List.range order).map fun k => (nlsf2aAt order
      (fun i => blend (interpFactor ch bank).toNat (ch.prevNlsf.toList.getD i 0).toNat (cur i)) k).toInt := by
  subst horder
  rw [firstHalf, if_pos hf]
  refine nlsf2a_eq (by simp [blendedNlsf, prevNlsfValues]) fun i hi => ?_
  rw [blendedNlsf_getD (by simpa using hi), hcur i hi]

end halves

/-- Settles O37: each half is `NLSF2A` of a vector given element by element, expanded and packed. -/
theorem predictionCoefficientsAreBlended : Obligations.PredictionCoefficientsAreBlended := by
  refine ⟨fun f prev cur h0 h4 => ?_, fun s hidle hc hvalid => ?_⟩
  · obtain ⟨hlo, hhi⟩ := blend_mem (prev := prev) (cur := cur) h0 h4
    obtain ⟨hprev, hcur⟩ := blend_ends prev cur
    exact ⟨hlo, hhi, hprev, hcur⟩
  refine ⟨_, exec_recon_of_ready hidle hc hvalid, ?_⟩
  intro order f prev cur second first k
  have horder : codebookOrder (codebookOf s.channel.fsKhz.toNat) = order := (lpcOrder_eq_codebookOrder hc).symm
  have hcur : ∀ i < order, (frameNlsf Config.rom s.channel s.idx).getD i 0 = cur i := fun i hi =>
    (prevNlsf_toList_getD s.idx (horder ▸ hi)).symm
  have hf : ((interpFactor s.channel s.idx).toNat : Int) = f := interpFactor_toNat _ _
  have hsecond : secondHalf Config.rom s.channel s.idx = (List.range order).map fun k => (second k).toInt :=
    secondHalf_eq s.idx horder hcur
  have hfirst : firstHalf Config.rom s.channel s.idx = (List.range order).map fun k => (first k).toInt := by
    by_cases hlt : f < 4
    · rw [firstHalf_eq s.idx horder hcur (by omega), hf]
      simp only [first, if_pos hlt, blend_eq, prev]
    · rw [firstHalf_eq_secondHalf (by omega), hsecond]
      simp only [first, if_neg hlt]
  refine ⟨?_, ?_⟩
  · change (pack 16 16 (expandOnLoss s.channel.lossCnt (secondHalf Config.rom s.channel s.idx)))[k] = _
    rw [hsecond, pack_expandOnLoss]
  · change (pack 16 16 (expandOnLoss s.channel.lossCnt (firstHalf Config.rom s.channel s.idx)))[k] = _
    rw [hfirst, pack_expandOnLoss]

end Sys2Proof.Machine
end

section
/-! PROOFS. The pitch lag mapper (R200 to R206): PITCHMAP's lags (O18), their range (O39), and RECON's agreement with
PITCHMAP (O40). -/

namespace Sys2Proof.Machine

/-! ### The contour tables (R202, R203) -/

/-- The entry of the contour table of `(fs, nsf)` for subframe `k` and a contour index, where the table has one. -/
def contourEntry (fs nsf k contour : Nat) : Option Int := (contourTable fs nsf)[k]?.bind (·[contour]?)

/-- A contour table has one row a subframe (R202). -/
theorem length_contourTable {fs nsf : Nat} (h : nsfLegal nsf = true) : (contourTable fs nsf).length = nsf := by
  obtain rfl | rfl : nsf = 2 ∨ nsf = 4 := by simpa [nsfLegal] using h
  all_goals unfold contourTable; split <;> rfl

/-- Every row of a contour table has `CONTOUR_SIZE` entries (R202). -/
theorem length_of_mem_contourTable {fs nsf : Nat} :
    ∀ row ∈ contourTable fs nsf, row.length = contourSize fs nsf := by
  unfold contourTable contourSize
  split_ifs <;> decide

theorem exists_contourEntry {fs nsf k contour : Nat} (hnsf : nsfLegal nsf = true) (hk : k < nsf)
    (hcontour : contour < contourSize fs nsf) : ∃ offset, contourEntry fs nsf k contour = some offset := by
  have hrow : k < (contourTable fs nsf).length := by rwa [length_contourTable hnsf]
  have hcolumn : contour < (contourTable fs nsf)[k].length := by
    rwa [length_of_mem_contourTable _ (List.getElem_mem hrow)]
  exact ⟨(contourTable fs nsf)[k][contour], by simp [contourEntry, hrow, hcolumn]⟩

/-! ### The lags (R201, R205) -/

/-- The lag of a subframe whose contour entry is in the table (R201). -/
theorem pitchLagAt_eq {fs nsf k contour : Nat} {offset : Int} (lagIndex : Int)
    (h : contourEntry fs nsf k contour = some offset) : pitchLagAt lagIndex contour fs nsf k =
      min (max (2 * (fs : Int) + lagIndex + offset) (2 * fs)) (18 * fs) := by
  obtain ⟨row, hrow, hentry⟩ := Option.bind_eq_some_iff.1 h
  have hread : tableRead ((contourTable fs nsf).getD k []) k contour = offset := by
    simp [tableRead, hrow, hentry]
  have hrange : 2 * (fs : Int) ≤ 18 * fs := by omega
  rw [← clamp_eq_min_max hrange, ← hread]
  rfl

/-- Settles O39: one lag a subframe, and the clamp comes last. -/
theorem pitchLagsAreClamped : Obligations.PitchLagsAreClamped := fun lagIndex contour fs nsf =>
  ⟨length_pitchMap lagIndex contour fs nsf, pitchMap_mem lagIndex contour fs nsf⟩

/-! ### PITCHMAP (R200, R206) -/

/-- PITCHMAP with legal operands runs (R85, R200). -/
theorem exec_pitchmap_of_legal {s : State} (hidle : s.seq = .idle) (hlegal : pmLegal s.pmArg = true) :
    exec .pitchmap s = .next (runPitchmap s) := by
  rw [exec_eq_issue]
  exact congrArg _ (issue_run hidle (checkPitchmap_eq_none.2 hlegal))

theorem pmLegal_iff {w : Word} : pmLegal w = true ↔
    pmRsvd w = 0 ∧ fsLegal (pmFs w) = true ∧ nsfLegal (pmNsf w) = true ∧
      pmContour w < contourSize (pmFs w) (pmNsf w) := by
  simp [pmLegal, and_assoc]

theorem pitchMapResult_getElem (w : Word) (k : Fin 4) : (pitchMapResult w)[k] = if k.val < pmNsf w
    then BitVec.ofInt 32 (pitchLagAt (pmLagIndex w) (pmContour w) (pmFs w) (pmNsf w) k.val) else 0 :=
  pack_map_range_getElem _ k

/-- Settles O18: below the subframe count the offset is the table's entry, and past it the register is 0. -/
theorem pitchmapWritesTheLags : Obligations.PitchmapWritesTheLags := by
  intro s hidle hlegal
  obtain ⟨-, -, hnsf, hcontour⟩ := pmLegal_iff.1 hlegal
  refine ⟨_, exec_pitchmap_of_legal hidle hlegal, rfl, fun k => ?_⟩
  change ∃ offset, _ ∧ (pitchMapResult s.pmArg)[k] = _
  simp only [pitchMapResult_getElem]
  by_cases hk : k.val < pmNsf s.pmArg
  · obtain ⟨offset, hoffset⟩ := exists_contourEntry hnsf hk hcontour
    refine ⟨offset, fun _ => hoffset, ?_⟩
    rw [if_pos hk, if_pos hk, pitchLagAt_eq _ hoffset]
  · exact ⟨0, fun h => absurd h hk, by rw [if_neg hk, if_neg hk]⟩

/-- The operands that R206 takes from a bank and `CFG`. -/
def framePmArg (ch : Channel) (bank : IndexBank) : Word :=
  pmWord bank.lagIndex bank.contourIndex ch.fsKhz ch.nbSubfr

/-- The operands of a legal configuration and a contour index in its table are legal (R88). -/
theorem pmLegal_framePmArg {ch : Channel} {bank : IndexBank} (hc : ch.cfgOk = true)
    (hcontour : bank.contourIndex.toNat < contourSize ch.fsKhz.toNat ch.nbSubfr.toNat) :
    pmLegal (framePmArg ch bank) = true := by
  obtain ⟨hfs, hnsf⟩ := Bool.and_eq_true_iff.1 hc
  simpa [pmLegal_iff, framePmArg] using ⟨hfs, hnsf, hcontour⟩

/-- PITCHMAP on a voiced bank's operands packs the lags that RECON packs (R174, R206). -/
theorem pitchMapResult_framePmArg {ch : Channel} {bank : IndexBank} (hvoiced : bank.signalType = 2) :
    pitchMapResult (framePmArg ch bank) = pack 32 4 (framePitchLags ch bank) := by
  simp [pitchMapResult, framePmArg, framePitchLags, hvoiced]

/-- Settles O40: both commands run, neither touches the error bits, and the two mapped sequences are the same. -/
theorem pitchmapAgreesWithRecon : Obligations.PitchmapAgreesWithRecon := by
  intro s hidle hc hvalid hvoiced hcontour
  refine ⟨_, _, exec_recon_of_ready hidle hc hvalid,
    exec_pitchmap_of_legal hidle (pmLegal_framePmArg hc hcontour), ?_, rfl⟩
  exact pitchMapResult_framePmArg hvoiced

end Sys2Proof.Machine
end

section
/-! PROOFS. The control commands: NOP (O13), RESET (O14), and DECFRM beside DECIDX and RECON (O16, O22). -/

namespace Sys2Proof.Machine

/-! ### NOP and RESET (R220, R221) -/

/-- NOP has no check of its own (R85). -/
theorem exec_nop_of_idle {s : State} (hidle : s.seq = .idle) : exec .nop s = .next (setDone s) := by
  rw [exec_eq_issue]
  exact congrArg _ (issue_run hidle rfl)

/-- Settles O13: NOP runs, and its effect is `setDone`. -/
theorem nopSetsDoneOnly : Obligations.NopSetsDoneOnly := fun _ hidle => exec_nop_of_idle hidle

/-- RESET has no check of its own (R85). -/
theorem exec_reset_of_idle {s : State} (hidle : s.seq = .idle) : exec .reset s = .next (runReset s) := by
  rw [exec_eq_issue]
  exact congrArg _ (issue_run hidle rfl)

@[simp] theorem runReset_seq (s : State) : (runReset s).seq = s.seq := rfl

/-- A second RESET writes the values that the first has left (R221). -/
@[simp] theorem runReset_runReset (s : State) : runReset (runReset s) = runReset s := rfl

/-- Settles O14: RESET runs, leaves the block idle for the second one, and is idempotent. -/
theorem resetReinitialisesTheChannel : Obligations.ResetReinitialisesTheChannel := by
  intro s hidle
  have hidle' : (runReset s).seq = .idle := by rw [runReset_seq, hidle]
  have hagain : exec .reset (runReset s) = .next (runReset s) := by
    rw [exec_reset_of_idle hidle', runReset_runReset]
  exact ⟨runReset s, exec_reset_of_idle hidle, hagain, rfl⟩

/-! ### The start of DECFRM (R222) -/

/-- DECFRM with a legal mode and configuration starts the exchange (R85, R222). -/
theorem exec_decfrm_of_ready {s : State} {mode : BitVec 2} (vad : Bool) (hidle : s.seq = .idle)
    (hc : s.channel.cfgOk = true) (hm : mode ≠ 3) :
    exec (.decfrm mode vad) s = .next (startRun .decfrm mode vad s) := by
  rw [exec_eq_issue]
  exact congrArg _ (issue_run hidle (checkModeAndConfig_eq_none.2 ⟨hm, hc⟩))

/-- Settles O16: both commands start their first run, which differs in the operation alone. -/
theorem decfrmStartsTheExchange : Obligations.DecfrmStartsTheExchange := by
  intro s mode vad hidle hc hm
  refine ⟨startRun .decfrm mode vad s, firstRun .decfrm mode vad s.channel, exec_decfrm_of_ready vad hidle hc hm, rfl,
    exec_decidx_of_ready vad hidle hc hm, rfl, rfl, rfl, rfl, rfl, ?_⟩
  exact readWord_status_of_running rfl

/-! ### The ends of DECFRM (R222, R134) -/

/-- Where an exchange waits for its next answer depends on the operands of the run alone, not on its operation. -/
theorem runSteps_exchange_waiting {s : State} {c : FrameContext} {tid : Tid} {answers : List Byte} {step : SeqStep}
    {st : Staged} (hwait : exchangeOn Config.rom c answers (.ask step st) = .error (.waiting tid)) :
    ∃ step' st', ∀ r : Run, frameContext r.mode r.vad s.channel = c →
      runSteps (2 * answers.length) (s.exchanging r step st answers) = .next (s.exchanging r step' st' []) := by
  induction answers generalizing step st with
  | nil => exact ⟨step, st, fun _ _ => rfl⟩
  | cons v vs ih =>
    rw [exchangeOn] at hwait
    split at hwait
    · cases hwait
    · next hin =>
      cases habsorb : absorb c v st step with
      | finished st' => simp [habsorb, exchangeOn] at hwait
      | ask step' st' =>
        rw [habsorb] at hwait
        obtain ⟨last, staged, hlast⟩ := ih hwait
        refine ⟨last, staged, fun r hr => ?_⟩
        subst hr
        rw [List.length_cons, Nat.mul_succ, runSteps_exchanging_cons,
          acceptResponse_answered_inRange s r step st v vs hin, habsorb]
        exact hlast r rfl

/-- DECIDX and DECFRM, fed answers that do not yet complete the frame, wait at the same place (R222). -/
theorem runSteps_startRun_waiting {s : State} {mode : BitVec 2} {vad : Bool} {answers : List Byte} {tid : Tid}
    (hwait : (indexProcedure Config.rom mode vad s.channel).run answers = .error (.waiting tid)) :
    ∃ step st, ∀ op, runSteps (2 * answers.length) { startRun op mode vad s with agenda := symbolAgenda answers } =
      .next (s.exchanging (firstRun op mode vad s.channel) step st []) := by
  rw [indexProcedure_eq_exchange] at hwait
  obtain ⟨step, st, hlast⟩ := runSteps_exchange_waiting (s := s) hwait
  exact ⟨step, st, fun op => hlast (firstRun op mode vad s.channel) rfl⟩

/-- RECON, accepted after DECIDX's commit under a legal configuration, gives the end of DECFRM (R130, R222). -/
theorem exec_recon_finishRun_decidx {mode : BitVec 2} {vad : Bool} {ch : Channel} {st : Staged} {s : State}
    (hc : s.channel.cfgOk = true) :
    exec .recon (finishRun Config.rom (firstRun .decidx mode vad ch) st s) =
      .next (finishRun Config.rom (firstRun .decfrm mode vad ch) st s) :=
  exec_recon_of_ready (finishRun_seq ..) hc rfl

/-- Settles O22: the two exchanges end as one procedure, and their ends differ as R222 says. -/
theorem decfrmEqualsDecidxThenRecon : Obligations.DecfrmEqualsDecidxThenRecon := by
  intro s mode vad answers hidle hc hm
  refine ⟨_, _, exec_decidx_of_ready vad hidle hc hm, exec_decfrm_of_ready vad hidle hc hm, ?_⟩
  have hdecidx := runSteps_startRun .decidx mode vad s answers
  have hdecfrm := runSteps_startRun .decfrm mode vad s answers
  cases hrun : (indexProcedure Config.rom mode vad s.channel).run answers with
  | error stop =>
    cases stop with
    | waiting tid =>
      obtain ⟨step, st, hwaits⟩ := runSteps_startRun_waiting hrun
      exact ⟨_, hwaits .decidx, hwaits .decfrm⟩
    | outOfRange tid v unread =>
      rw [hrun] at hdecidx hdecfrm
      exact fun hunread => ⟨_, hdecidx hunread, hdecfrm hunread⟩
  | ok result =>
    rw [hrun] at hdecidx hdecfrm
    exact fun hunread => ⟨_, _, hdecidx hunread, exec_recon_finishRun_decidx hc, hdecfrm hunread⟩

end Sys2Proof.Machine
end

section
/-! PROOFS. The errors (60_exceptions): at issue (O5 to O8), while BUSY (O10, O11) and on the bus (O12); what no command
touches (O19), the steps in which the block waits (O31) and the interrupt line (O52). -/

namespace Sys2Proof.Machine

/-! ### The issue of a command, for all commands at once (R85) -/

/-- The checks of a command, in the order of R85. -/
def commandCheck : Instr → State → Option ErrorCause
  | .nop | .reset => checkNothing
  | .decidx mode _ | .decfrm mode _ => checkModeAndConfig mode
  | .recon => checkRecon
  | .pitchmap => checkPitchmap

/-- The effect of a command that passes its checks. -/
def commandEffect : Instr → State → State
  | .nop => setDone
  | .reset => runReset
  | .decidx mode vad => startRun .decidx mode vad
  | .recon => runRecon Config.rom
  | .decfrm mode vad => startRun .decfrm mode vad
  | .pitchmap => runPitchmap

/-- Every command is issued under its own opcode. -/
theorem exec_eq_issue_opcode (i : Instr) (s : State) :
    exec i s = .next (issue i.opcode (commandCheck i) (commandEffect i) s) := by
  cases i <;> rfl

/-- A command issued while BUSY is refused (R245). -/
theorem exec_of_running {s : State} {r : Run} (hr : s.seq = .running r) (i : Instr) :
    exec i s = .next (recordError .busy i.opcode 0 0 s) := by
  rw [exec_eq_issue_opcode, issue_busy (busy_of_running hr)]

/-- A command of an idle block whose checks find `c` ends with that error (R85, R240). -/
theorem exec_of_check_eq_some {s : State} {i : Instr} {c : ErrorCause} (hidle : s.seq = .idle)
    (hc : commandCheck i s = some c) : exec i s = .next (setDone (recordError c i.opcode 0 0 s)) := by
  rw [exec_eq_issue_opcode, issue_error_of_idle hidle hc]

/-! ### Errors at issue (R242, R243, R246) -/

theorem cfgOk_eq_false_iff (c : Channel) :
    c.cfgOk = false ↔ ¬ (c.fsKhz ∈ [8, 12, 16]) ∨ ¬ (c.nbSubfr ∈ [2, 4]) := by
  rw [← Bool.not_eq_true, cfgOk_iff, not_and_or]

theorem checkModeAndConfig_of_not_cfgOk {mode : BitVec 2} {s : State} (hmode : modeLegal mode = true)
    (hcfg : s.channel.cfgOk = false) : checkModeAndConfig mode s = some .config := by
  have hne : mode ≠ 3 := bne_iff_ne.1 hmode
  rw [checkModeAndConfig, if_neg hne, hcfg]
  rfl

theorem checkRecon_of_not_cfgOk {s : State} (hcfg : s.channel.cfgOk = false) : checkRecon s = some .config := by
  simp [checkRecon, hcfg]

theorem checkRecon_of_not_valid {s : State} (hcfg : s.channel.cfgOk = true) (hvalid : s.idxStatus.valid = false) :
    checkRecon s = some .seq := by
  simp [checkRecon, hcfg, hvalid]

theorem checkPitchmap_of_not_legal {s : State} (harg : pmLegal s.pmArg = false) : checkPitchmap s = some .arg := by
  simp [checkPitchmap, harg]

/-- The commands with opcodes 2, 3 and 4 need a legal configuration (R242). -/
theorem commandCheck_of_not_cfgOk {s : State} {i : Instr} (hwf : i.wellFormed = true)
    (hop : i.opcode = 2 ∨ i.opcode = 3 ∨ i.opcode = 4) (hcfg : s.channel.cfgOk = false) :
    commandCheck i s = some .config := by
  cases i with
  | decidx mode _ | decfrm mode _ => exact checkModeAndConfig_of_not_cfgOk hwf hcfg
  | recon => exact checkRecon_of_not_cfgOk hcfg
  | nop | reset | pitchmap => exact absurd hop (by decide)

/-- Settles O6: the configuration is the check that fails, and after reset it is not legal. -/
theorem commandWithoutConfigRaisesErrConfig : Obligations.CommandWithoutConfigRaisesErrConfig := by
  refine ⟨fun s i hwf hop hidle hcfg => ?_, cfgOk_eq_false_iff, ?_⟩
  · exact exec_of_check_eq_some hidle (commandCheck_of_not_cfgOk hwf hop hcfg)
  · have hcheck : commandCheck (.decidx 0 false) State.reset = some .config :=
      checkModeAndConfig_of_not_cfgOk rfl rfl
    exact ⟨_, exec_of_check_eq_some rfl hcheck, by decide, by decide⟩

/-- RECON of an idle block with no valid bank (R243). -/
theorem exec_recon_of_not_valid {s : State} (hidle : s.seq = .idle) (hcfg : s.channel.cfgOk = true)
    (hvalid : s.idxStatus.valid = false) : exec .recon s = .next (setDone (recordError .seq 3 0 0 s)) :=
  exec_of_check_eq_some (i := .recon) hidle (checkRecon_of_not_valid hcfg hvalid)

/-- Settles O7: the commit of the first RECON takes the bank's validity away and keeps the configuration, so that the
second one ends with `ErrSeq` (R293). -/
theorem reconWithoutIndicesRaisesErrSeq : Obligations.ReconWithoutIndicesRaisesErrSeq := by
  refine ⟨fun s => exec_recon_of_not_valid, fun s hidle hcfg hvalid => ?_⟩
  have hidle' : (runRecon Config.rom s).seq = .idle := hidle
  have hcfg' : (runRecon Config.rom s).channel.cfgOk = true := hcfg
  exact ⟨_, _, exec_recon_of_ready hidle hcfg hvalid, exec_recon_of_not_valid hidle' hcfg' rfl, rfl, rfl, rfl, rfl⟩

/-- Settles O8: the operands are PITCHMAP's one check. -/
theorem illegalOperandsRaiseErrArg : Obligations.IllegalOperandsRaiseErrArg :=
  ⟨fun _ hidle harg => exec_of_check_eq_some (i := .pitchmap) hidle (checkPitchmap_of_not_legal harg), by decide⟩

/-! ### Words written to CMD (R85, R241) -/

/-- A word that decodes is legal and holds its command's opcode (R81, R84). -/
theorem legalWord_of_decode {w : Word} {i : Instr} (h : decode w = .ok i) :
    legalWord w = true ∧ opField w = i.opcode := by
  have hwf : i.wellFormed = true := wellFormed_of_decodeFields (decode_eq_ok_iff.1 h).2
  rw [← encode_of_decode h]
  cases i with
  | nop => exact Laws.EncodeLegal.nop hwf
  | reset => exact Laws.EncodeLegal.reset hwf
  | decidx mode vad => exact Laws.EncodeLegal.decidx mode vad hwf
  | recon => exact Laws.EncodeLegal.recon hwf
  | decfrm mode vad => exact Laws.EncodeLegal.decfrm mode vad hwf
  | pitchmap => exact Laws.EncodeLegal.pitchmap hwf

/-- An idle block accepts an illegal word and ends it with `ErrCmd` (R241). -/
theorem receiveCommand_of_illegal {w : Word} {s : State} (hidle : s.seq = .idle) (hw : legalWord w = false) :
    receiveCommand w s = .next (setDone (recordError .cmd (opField w) 0 0 s)) := by
  unfold receiveCommand
  split
  · next i hi => simp [(legalWord_of_decode hi).1] at hw
  · exact congrArg Host.Outcome.next (issue_error_of_idle hidle rfl)

/-- A running block refuses every word, legal or not, under the word's `OP` (R245). -/
theorem receiveCommand_of_running {s : State} {r : Run} (hr : s.seq = .running r) (w : Word) :
    receiveCommand w s = .next (recordError .busy (opField w) 0 0 s) := by
  unfold receiveCommand
  split
  · next i hi => rw [exec_of_running hr, (legalWord_of_decode hi).2]
  · exact congrArg Host.Outcome.next (issue_busy (busy_of_running hr))

/-- An illegal word written to the CMD of an idle block. -/
theorem step_illegalWord {s : State} {es : List Event} {w : Word} (hagenda : s.agenda = wordWrite cmdOffset w :: es)
    (hw : legalWord w = false) (hidle : s.seq = .idle) :
    step s = .next (setDone (recordError .cmd (opField w) 0 0 (afterWrite es s))) :=
  (step_wordWrite hagenda rfl (regAt_offset .cmd)).trans (receiveCommand_of_illegal hidle hw)

/-- Settles O5: the write is answered, and the word ends with `ErrCmd`. -/
theorem illegalWordRaisesErrCmd : Obligations.IllegalWordRaisesErrCmd := by
  refine ⟨fun s es w => step_illegalWord, ?_⟩
  have hstep := step_illegalWord (withFetchWord_agenda State.reset 6) (by decide) rfl
  exact ⟨_, hstep, by decide, by decide⟩

/-! ### While BUSY (R245) -/

/-- Settles O10: the refusal is the first thing that the issue of a command decides. -/
theorem commandWhileBusyIsRefused : Obligations.CommandWhileBusyIsRefused :=
  fun _ _ i hr => exec_of_running hr i

theorem runOpCode_eq (op : RunOp) : op.code = if op = .decidx then 2 else 4 := by
  cases op <;> rfl

/-- Settles O11: register by register, on the state in which the write has been answered. -/
theorem hostWritesWhileBusy : Obligations.HostWritesWhileBusy := by
  intro s es r w hr
  have hr' : (afterWrite es s).seq = .running r := hr
  rw [← runOpCode_eq]
  refine ⟨fun hcmd => ?_, fun hcfgOrLoss => ?_, fun hstatus => ?_, fun hctrl => ?_, fun hpm => ?_⟩
  · rw [step_wordWrite hcmd rfl (regAt_offset .cmd)]
    exact receiveCommand_of_running hr' w
  · rcases hcfgOrLoss with hcfg | hloss
    · rw [step_wordWrite hcfg rfl (regAt_offset .cfg)]
      exact congrArg Host.Outcome.next (writeCfg_running w hr')
    · rw [step_wordWrite hloss rfl (regAt_offset .lossCnt)]
      exact congrArg Host.Outcome.next (writeLossCnt_running w hr')
  · exact ⟨_, step_wordWrite hstatus rfl (regAt_offset .status), rfl, rfl⟩
  · exact step_wordWrite hctrl rfl (regAt_offset .ctrl)
  · exact step_wordWrite hpm rfl (regAt_offset .pmArg)

/-! ### Refused accesses (R247) -/

theorem accessServed_eq_false_iff {width : AccessWidth} {off : Offset} :
    accessServed width off = false ↔ width ≠ .word ∨ off.toNat % 4 ≠ 0 := by
  simp [accessServed, imp_iff_not_or]

/-- Settles O12: neither access is served, and a refused one is answered and recorded. -/
theorem refusedAccessRecordsErrBus : Obligations.RefusedAccessRecordsErrBus := by
  intro s es width off w hwrong
  have hrefused : accessServed width off = false := accessServed_eq_false_iff.2 hwrong
  refine ⟨fun hread => ?_, fun hwrite => ?_⟩
  · simp only [step_cons hread, agentStep, hostAccess, hrefused]
    rfl
  · simp only [step_cons hwrite, agentStep, hostAccess, hrefused]
    rfl

/-! ### What no command touches -/

/-- The fields that no command writes: `CTRL`, `PM_ARG` and the model's own (R43, R47, R65; log 1, log 2). -/
def hostFields (s : State) : Bool × Word × List Event × Option BusReply :=
  (s.irqEn, s.pmArg, s.agenda, s.busReply)

theorem hostFields_eq_iff {s t : State} : hostFields t = hostFields s ↔
    t.irqEn = s.irqEn ∧ t.pmArg = s.pmArg ∧ t.agenda = s.agenda ∧ t.busReply = s.busReply := by
  simp only [hostFields, Prod.mk.injEq]

theorem commandEffect_hostFields (i : Instr) (s : State) : hostFields (commandEffect i s) = hostFields s := by
  cases i <;> rfl

/-- A refusal and an error keep these fields, so an issued command keeps them if its effect does (R240). -/
theorem issue_hostFields {op : BitVec 4} {check : State → Option ErrorCause} {run : State → State} {s : State}
    (hrun : hostFields (run s) = hostFields s) : hostFields (issue op check run s) = hostFields s := by
  rcases issue_cases op check run s with ⟨-, e⟩ | ⟨-, c, -, e⟩ | ⟨-, -, e⟩ <;> rw [e]
  · rfl
  · rfl
  · exact hrun

/-- Settles O19: every command is issued, and neither its issue nor its effect touches the four fields. -/
theorem execAlwaysAnswersNext : Obligations.ExecAlwaysAnswersNext := fun i s =>
  ⟨_, exec_eq_issue_opcode i s, hostFields_eq_iff.1 (issue_hostFields (commandEffect_hostFields i s))⟩

/-! ### Waiting (R259, R287) -/

theorem step_of_no_agenda {s : State} (hagenda : s.agenda = []) : step s = .next s :=
  step_eq_next.2 (.inl ⟨hagenda, rfl⟩)

/-- With no answer to accept the block's turn does nothing. -/
theorem blockTurn_of_no_response {rom : Rom} {s : State} (hnone : ∀ r, s.seq = .running r → r.response = none) :
    blockTurn rom s = s := by
  rcases blockTurn_cases rom s with ⟨hsame, -⟩ | ⟨r, v, hr, hv, -⟩
  · exact hsame
  · simp [hnone r hr] at hv

/-- Settles O31: nobody moves, or the block moves with nothing to accept. -/
theorem theBlockWaits : Obligations.TheBlockWaits := by
  refine ⟨fun _ => step_of_no_agenda, fun s es hagenda hnone => ?_⟩
  rw [step_cons hagenda]
  exact congrArg Host.Outcome.next (blockTurn_of_no_response (s := setAgenda es s) hnone)

/-! ### The interrupt line (R250) -/

/-- A flag is bit 0 of the word that the host reads (R11). -/
theorem flagWord_getLsbD (b : Bool) : (flagWord b).getLsbD 0 = b := by
  simp [flagWord, zextWord]

/-- `DONE` and the error bits of `STATUS` as the host reads them (R42). -/
theorem toWord_and_irqMask_eq_zero_iff (st : Status) (busy : Bool) :
    st.toWord busy &&& 0x7F02 = 0 ↔ (st.done || st.anyError) = false := by
  rw [toWord_and, toWord_eq_zero_iff]
  simp [Status.masked, Status.anyError]

/-- Settles O52: the two words that the host reads show the terms of the line. -/
theorem interruptLine : Obligations.InterruptLine := by
  refine ⟨fun s => ?_, rfl⟩
  have hctrl : readWord s 0x00C = flagWord s.irqEn := readWord_of_regAt (regAt_offset .ctrl) s
  have hstatus : readWord s 0x008 = s.status.toWord s.busy := readWord_of_regAt (regAt_offset .status) s
  rw [hctrl, hstatus, flagWord_getLsbD, ne_eq, toWord_and_irqMask_eq_zero_iff, Bool.not_eq_false]
  exact Bool.and_eq_true_iff

end Sys2Proof.Machine
end

section
/-! PROOFS. Reset and hazards (70_reset_and_hazards): power-on reset out of any state (O54; R270, R280, R287). -/

namespace Sys2Proof.Machine

/-- Power-on reset is always possible: it asks nothing of the state, a running command's included (R287). -/
theorem agentStep_powerOn (s : State) : agentStep .powerOn s = .next (powerOnReset s) := rfl

/-- Nothing of the state survives but the events still to come (R280). -/
theorem powerOnReset_setAgenda (es : List Event) (s : State) :
    powerOnReset (setAgenda es s) = { State.reset with agenda := es } := rfl

/-- Settles O54: the reset takes its turn whatever the state, and forgets all of it but the agenda. -/
theorem powerOnResetsFromAnyState : Obligations.PowerOnResetsFromAnyState := fun s es hagenda =>
  calc step s
    _ = agentStep .powerOn (setAgenda es s) := step_cons hagenda
    _ = .next (powerOnReset (setAgenda es s)) := agentStep_powerOn _
    _ = .next { State.reset with agenda := es } := congrArg Host.Outcome.next (powerOnReset_setAgenda es s)

end Sys2Proof.Machine
end
